-- ==== Sys2Proof/Word.lean ====
section
/-! DEFINITION. The word types of the block: every value the rules shift, mask or pack is an unsigned bit vector
of the width the rule states (00_scope.md R7, R8). -/

namespace Sys2Proof

/-- A byte of the stream, the unit of every transfer into the block (20_memory.md R61). -/
abbrev Byte := BitVec 8

/-- A command word `cmd[11:0]` (30_encoding.md R90). -/
abbrev Cmd := BitVec 12

/-- A CRC-24Q value, the accumulator width `CRC_W` (00_scope.md R5). -/
abbrev Crc24 := BitVec 24

/-- A response word or a descriptor word of an event (30_encoding.md R98, R100). -/
abbrev Word32 := BitVec 32

/-- A `payload_length`, `LEN_BITS` wide (00_scope.md R5). -/
abbrev Len10 := BitVec 10

/-- A `message_type`, `TYPE_BITS` wide (00_scope.md R5). -/
abbrev Type12 := BitVec 12

/-- A register number, the operand of an R-format command (30_encoding.md R92). -/
abbrev RegNum := BitVec 8

end Sys2Proof
end

