-- ==== Sys2Proof/Syntax.lean ====
section
/-! DEFINITION. The commands, one constructor for each row of spec/opcode_table.json, the named registers of
10_state.md R32, and the statements of the assembler's language with its pseudo-instructions (30_encoding.md
R101, R102). -/

namespace Sys2Proof

/-- The seven commands (30_encoding.md R93). Operands are 8 bits wide, as R92 says, so no operand is out of
range. -/
inductive Instr where
  /-- NOP, format N (42_system.md R180). -/
  | nop
  /-- PUSH b, format B (41_framer.md R140). -/
  | push (b : Byte)
  /-- FLUSH, format N (41_framer.md R154). -/
  | flush
  /-- CRC.CLR, format N (40_crc_engine.md R124). -/
  | crcClr
  /-- CRC.UPD b, format B (40_crc_engine.md R125). -/
  | crcUpd (b : Byte)
  /-- RDREG r, format R (42_system.md R181). -/
  | rdreg (r : RegNum)
  /-- SRST, format N (42_system.md R182). -/
  | srst
deriving DecidableEq, Repr

/-- The three formats, told apart by `op` alone (30_encoding.md R91). -/
inductive Format where
  | n
  | b
  | r
deriving DecidableEq, Repr

/-- The ten assigned register numbers of 10_state.md R32, by name. -/
inductive RegName where
  | status
  | buflen
  | msgs
  | crcerr
  | lasthdr
  | lastrx
  | lastcalc
  | crcacc
  | poly
  | bufcap
deriving DecidableEq, Repr

/-- The operand of RDREG in the textual form: a number or a register's name (30_encoding.md R101). -/
inductive AsmReg where
  | number (n : Nat)
  | named (r : RegName)
deriving DecidableEq, Repr

/-- One statement of a command stream's text (30_encoding.md R101) or a pseudo-instruction (R102). Numbers are as
written; `AsmStmt.WellFormed` says which are legal. -/
inductive AsmStmt where
  | nop
  | push (b : Nat)
  | flush
  | crcClr
  | crcUpd (b : Nat)
  | rdreg (r : AsmReg)
  | srst
  /-- `.word 0xNNN`, an arbitrary 12-bit word. -/
  | word (w : Nat)
  /-- `CRC.RD` (42_system.md R183). -/
  | crcRd
  /-- `PUSHS b0 ... bk` (42_system.md R184). -/
  | pushs (bs : List Nat)
  /-- `CRC24Q b0 ... bk` (42_system.md R185). -/
  | crc24q (bs : List Nat)
deriving DecidableEq, Repr

end Sys2Proof
end

