-- ==== Sys2Proof/Config.lean ====
section
/-! DEFINITION. What an implementation fixes: the constants of 00_scope.md R5, which no model takes as arguments,
the parameters of R6, which every model takes as configuration, and the two values the spec leaves open, each an
opaque constant with no body. -/

namespace Sys2Proof.Config

/-- `POLY`, the generator, 25 bits with bit 24 set (R5). -/
abbrev poly : BitVec 25 := 0x1864CFB#25

/-- `CRC_INIT`, the accumulator at the start of every computation (R5). -/
abbrev crcInit : Crc24 := 0#24

/-- `PREAMBLE`, the first byte of every frame (R5). -/
abbrev preamble : Byte := 0xD3#8

/-- `HDR_BYTES`: the preamble and two header bytes (R5). -/
abbrev hdrBytes : Nat := 3

/-- `CRC_BYTES`: the trailer (R5). -/
abbrev crcBytes : Nat := 3

/-- `MIN_AVAIL`: fewest buffered bytes at which a length is read (R5, 41_framer.md R145). -/
abbrev minAvail : Nat := 6

/-- `MAX_PAYLOAD` (R5). -/
abbrev maxPayload : Nat := 1023

/-- `MAX_FRAME` (R5). -/
abbrev maxFrame : Nat := 1029

/-- `MIN_FRAME` (R5). -/
abbrev minFrame : Nat := 6

/-- The value `DUMP_MAX` of the machine as it comes out of reset: the spec leaves it OPEN ("no value taken",
00_scope.md R6, 92 D15, 93 U3), anything from 0 to 1029, so no number stands here. Log entry 5. -/
opaque openDumpMax : Fin 1030

/-- DESIGN CHOICE (log entry 6). The 32-bit word an implementation shows for a number that needs more than 32
bits: the spec writes `zext_32` and `dropped: 32 bits` of `BUF_CAP`, which R6 does not bound above, and states no
result beyond 32 bits, so the value is free. -/
opaque wideWord : Nat → Word32

end Sys2Proof.Config

namespace Sys2Proof

/-- The parameters the source leaves to the implementation (00_scope.md R6). They are fixed when the block is
built (70_reset_and_hazards.md R243); no step changes them. -/
structure Config where
  /-- `BUF_CAP`, the capacity of the receive buffer in bytes. -/
  bufCap : Nat
  /-- `CNT_W`, the width of each of the two counters. -/
  cntW : Nat
  /-- `DUMP_MAX`, the most bytes of a failed frame carried by the CRC-failure event. -/
  dumpMax : Nat
deriving DecidableEq, Repr

/-- `LEN_W = ceil(log2(BUF_CAP + 1))`, the width of the fill count (R6). -/
def Config.lenW (c : Config) : Nat := Nat.clog 2 (c.bufCap + 1)

/-- The configuration the spec takes: `BUF_CAP` 1029, `CNT_W` 32 (R6); `DUMP_MAX` stays open. -/
def Config.initial : Config :=
  { bufCap := 1029, cntW := 32, dumpMax := Config.openDumpMax.val }

end Sys2Proof
end

