-- ==== Sys2Proof/WellFormed.lean ====
section
/-! DEFINITION. The checks: which configurations are legal (00_scope.md R6), which statements of the assembler's
language have operands in range (30_encoding.md R101), and that every command term is well-formed, since its
operand types hold exactly the 8-bit operands of R92. -/

namespace Sys2Proof

/-- Every command is well-formed: an operand is any 8-bit value (30_encoding.md R91, R92). -/
def Instr.WellFormed : Instr → Bool
  | .nop => true
  | .push _ => true
  | .flush => true
  | .crcClr => true
  | .crcUpd _ => true
  | .rdreg _ => true
  | .srst => true

/-- `BUF_CAP`: "integer, 6 or more" (R6). -/
def Config.bufCapLegal (c : Config) : Bool := 6 ≤ c.bufCap

/-- `CNT_W`: "1 to 32" (R6). -/
def Config.cntWLegal (c : Config) : Bool := 1 ≤ c.cntW && c.cntW ≤ 32

/-- `DUMP_MAX`: "0 to 1029" (R6). -/
def Config.dumpMaxLegal (c : Config) : Bool := c.dumpMax ≤ 1029

/-- A legal configuration (R6). -/
def Config.WellFormed (c : Config) : Bool := c.bufCapLegal && c.cntWLegal && c.dumpMaxLegal

/-- An operand "is a number 0 to 255" (30_encoding.md R101). -/
def byteInRange (n : Nat) : Bool := n ≤ 255

/-- The legal statements (30_encoding.md R101): data bytes and register numbers 0 to 255, words of 12 bits. -/
def AsmStmt.WellFormed : AsmStmt → Bool
  | .nop => true
  | .push b => byteInRange b
  | .flush => true
  | .crcClr => true
  | .crcUpd b => byteInRange b
  | .rdreg (.number n) => byteInRange n
  | .rdreg (.named _) => true
  | .srst => true
  | .word w => w ≤ 0xFFF
  | .crcRd => true
  | .pushs bs => bs.all byteInRange
  | .crc24q bs => bs.all byteInRange

end Sys2Proof
end

