-- ==== Sys2Proof/Decode.lean ====
section
/-! DEFINITION. The command word and its fields, the opcode map, the total decoder and the encoder
(30_encoding.md R90 to R96). -/

namespace Sys2Proof

/-- `op = cmd[11:8]` (R90). -/
def Cmd.op (w : Cmd) : BitVec 4 := w.extractLsb' 8 4

/-- `arg = cmd[7:0]` (R90). -/
def Cmd.arg (w : Cmd) : BitVec 8 := w.extractLsb' 0 8

/-- Why a word is a reserved encoding: the two kinds R94 lists. -/
inductive Reserved where
  /-- `op` in `{0x3, 0x6, 0x8, 0x9, 0xA, 0xB, 0xC, 0xD, 0xE}`. -/
  | reservedOpcode (op : BitVec 4)
  /-- `op` in `{0x0, 0x2, 0x4, 0xF}` and `arg != 0`. -/
  | nonZeroArgument (op : BitVec 4) (arg : BitVec 8)
deriving DecidableEq, Repr

/-- A format-N word is its command when the must-be-zero operand is zero (R91), else reserved (R94). -/
def decodeN (i : Instr) (w : Cmd) : Except Reserved Instr :=
  if w.arg = 0#8 then .ok i else .error (.nonZeroArgument w.op w.arg)

/-- The decoder, total on the 4096 words, by `op` and then `arg` alone (R96). -/
def decode (w : Cmd) : Except Reserved Instr :=
  match w.op.toNat with
  | 0x0 => decodeN .nop w
  | 0x1 => .ok (.push w.arg)
  | 0x2 => decodeN .flush w
  | 0x4 => decodeN .crcClr w
  | 0x5 => .ok (.crcUpd w.arg)
  | 0x7 => .ok (.rdreg w.arg)
  | 0xF => decodeN .srst w
  | _ => .error (.reservedOpcode w.op)

/-- The `op` column of the opcode map (R93). -/
def Instr.opcode : Instr → BitVec 4
  | .nop => 0x0#4
  | .push _ => 0x1#4
  | .flush => 0x2#4
  | .crcClr => 0x4#4
  | .crcUpd _ => 0x5#4
  | .rdreg _ => 0x7#4
  | .srst => 0xF#4

/-- The format column of the opcode map (R93). -/
def Instr.format : Instr → Format
  | .nop => .n
  | .push _ => .b
  | .flush => .n
  | .crcClr => .n
  | .crcUpd _ => .b
  | .rdreg _ => .r
  | .srst => .n

/-- The `arg` field a command carries: zero in format N (R91), the operand in formats B and R (R92). -/
def Instr.argument : Instr → BitVec 8
  | .nop => 0#8
  | .push b => b
  | .flush => 0#8
  | .crcClr => 0#8
  | .crcUpd b => b
  | .rdreg r => r
  | .srst => 0#8

/-- The word of a command, `op` above `arg` (R90, R93). -/
def encode (i : Instr) : Cmd := i.opcode ++ i.argument

/-- A row of the opcode map: `w` is the row's command when `(w & mask) = match` (R93). -/
structure OpcodeRow where
  matchBits : Cmd
  mask : Cmd
deriving DecidableEq, Repr

/-- `(w & mask) = match` (R93). -/
def OpcodeRow.Matches (row : OpcodeRow) (w : Cmd) : Bool := w &&& row.mask = row.matchBits

/-- The match and mask columns of the opcode map (R93). -/
def Instr.row : Instr → OpcodeRow
  | .nop => ⟨0x000#12, 0xFFF#12⟩
  | .push _ => ⟨0x100#12, 0xF00#12⟩
  | .flush => ⟨0x200#12, 0xFFF#12⟩
  | .crcClr => ⟨0x400#12, 0xFFF#12⟩
  | .crcUpd _ => ⟨0x500#12, 0xF00#12⟩
  | .rdreg _ => ⟨0x700#12, 0xF00#12⟩
  | .srst => ⟨0xF00#12, 0xFFF#12⟩

/-- The seven rows, in the table's order (R93). -/
def opcodeMap : List OpcodeRow :=
  [Instr.nop.row, (Instr.push 0).row, Instr.flush.row, Instr.crcClr.row, (Instr.crcUpd 0).row,
   (Instr.rdreg 0).row, Instr.srst.row]

/-- The decoder on a word numbered as spec/opcode_table.json numbers it. A command is one 12-bit word (R90): bits
the caller does not give are zero, and a number with a bit above bit 11 is no command word (log entry 10). -/
def decodeTableWord (nbits w : Nat) : Option Instr :=
  if w % 2 ^ nbits < 2 ^ 12 then
    match decode (BitVec.ofNat 12 (w % 2 ^ nbits)) with
    | .ok i => some i
    | .error _ => none
  else none

end Sys2Proof
end

