-- ==== Sys2Proof/Machine/State.lean ====
section
/-! DEFINITION. The state of the block as plain data: the elements of 10_state.md R20, the configuration of
00_scope.md R6, the output trace of R36, the two output ports (20_memory.md R74, 70_reset_and_hazards.md R250) and
what the outside does next (R72, R240). -/

namespace Sys2Proof.Machine

/-- The four kinds of event record (30_encoding.md R99). -/
inductive Event where
  /-- `DECODED`, code 1: a candidate frame passed its CRC check (41_framer.md R149). -/
  | decoded (len : Len10) (type : Type12) (typeValid : Bool) (crc : Crc24) (payload : List Byte)
  /-- `CRCFAIL`, code 2: a candidate frame failed its CRC check (41_framer.md R152). -/
  | crcFail (len : Len10) (rxCrc calcCrc : Crc24) (dump : List Byte)
  /-- `OVERFLOW`, code 3: the buffer was full and was reset (41_framer.md R141). -/
  | overflow (dropped : Word32)
  /-- `ILLEGAL`, code 4: a reserved encoding was received (30_encoding.md R94). -/
  | illegal (cmd : Cmd)
deriving DecidableEq, Repr

/-- One item of the output trace (10_state.md R36): a response word or an event record. -/
inductive OutItem where
  | rsp (v : Word32)
  | evt (e : Event)
deriving DecidableEq, Repr

/-- One transfer on the event port: `evt_word`, `evt_is_data` and `evt_last` (30_encoding.md R100). -/
structure Transfer where
  word : Word32
  isData : Bool
  last : Bool
deriving DecidableEq, Repr

/-- What the outside can do to the block (20_memory.md R72, 70_reset_and_hazards.md R240). -/
inductive PortInput where
  /-- The host presents a word on the command port. -/
  | command (w : Cmd)
  /-- The reset input `rst` is 1 at a clock edge. -/
  | reset
  /-- The event sink accepts the transfer waiting on the event port, if there is one. -/
  | takeEvent
  /-- The host accepts the word waiting on the response port, if there is one. -/
  | takeResponse
deriving DecidableEq, Repr

/-- The receive buffer as a list of (offset, byte) cells: one cell for each valid byte. An offset that is not
listed has no value ("Bytes at index `LEN` and above have no value", 10_state.md R22; 93 U10). Log entry 7. -/
abbrev Memory := List Host.Cell

/-- The whole state. The first eleven fields after `cfg` are 10_state.md R20's list (`LEN` has one home with
`BUF`, see `State.len`); `cfg`, `out`, `inputs` and the four port fields are the model's own (log entries 1, 2, 3
and 5). -/
structure State where
  /-- `ACC` (R21). -/
  acc : Crc24
  /-- `BUF`, and with it `LEN` (R22). -/
  buf : Memory
  /-- `MSGS` (R23), a number below `2^CNT_W`. -/
  msgs : Nat
  /-- `CRCERR` (R24), a number below `2^CNT_W`. -/
  crcerr : Nat
  /-- `OVF` (R25). -/
  ovf : Bool
  /-- `ILL` (R26). -/
  ill : Bool
  /-- `LASTV` (R27). -/
  lastv : Bool
  /-- `LASTHDR` (R29). -/
  lasthdr : BitVec 24
  /-- `LASTRX` (R30). -/
  lastrx : Crc24
  /-- `LASTCALC` (R30). -/
  lastcalc : Crc24
  /-- `OUT`, the output trace, oldest first (R36). -/
  out : List OutItem
  /-- What the host and the event sink do next, in order. -/
  inputs : List PortInput
  /-- Event transfers waiting on the event port, oldest first. -/
  evtPort : List Transfer
  /-- Event transfers the sink has accepted, oldest first. -/
  evtTaken : List Transfer
  /-- Response words waiting on the response port, oldest first. -/
  rspPort : List Word32
  /-- Response words the host has accepted, oldest first. -/
  rspTaken : List Word32
  /-- The configuration the block was built with (00_scope.md R6). -/
  cfg : Config
deriving DecidableEq, Repr

/-- Ways the machine can stop with a fault: none, so there is no constructor. The spec's three faults are recorded
and survived, "never fatal to the block" (00_scope.md R11, 60_exceptions.md R208); they are `FaultInfo` of
Machine/Ops.lean and lead to a next state. -/
inductive Fault where
deriving DecidableEq, Repr

/-- Ways the model can refuse. -/
inductive Refusal where
  /-- Raised by an arm of `exec` whose instruction has no meaning yet. No arm raises it. Safe. -/
  | notModelled (mnemonic : String)
deriving DecidableEq, Repr

/-- The machine right after hardware reset, built with configuration `c`: the values of 10_state.md R38. The
trace, the inputs and the ports are empty (log entries 1, 2, 3). -/
def State.resetWith (c : Config) : State :=
  { acc := 0#24, buf := [], msgs := 0, crcerr := 0, ovf := false, ill := false, lastv := false,
    lasthdr := 0#24, lastrx := 0#24, lastcalc := 0#24, out := [], inputs := [], evtPort := [], evtTaken := [],
    rspPort := [], rspTaken := [], cfg := c }

/-- The machine right after reset, with the configuration the spec takes (R6, R38). -/
def State.reset : State := State.resetWith Config.initial

end Sys2Proof.Machine
end

