-- ==== Sys2Proof/Machine/Events.lean ====
section
/-! DEFINITION. The packing of an event on the event port (30_encoding.md R100). -/

namespace Sys2Proof.Machine

/-- The event code (R99). -/
def Event.code : Event → BitVec 4
  | .decoded .. => 1#4
  | .crcFail .. => 2#4
  | .overflow .. => 3#4
  | .illegal .. => 4#4

/-- `len`, bits 13:4 of `W0` (R100). -/
def Event.lenField : Event → Len10
  | .decoded len .. => len
  | .crcFail len .. => len
  | .overflow .. => 0#10
  | .illegal .. => 0#10

/-- `type`, bits 25:14 of `W0` (R100). -/
def Event.typeField : Event → Type12
  | .decoded _ type .. => type
  | .crcFail .. => 0#12
  | .overflow .. => 0#12
  | .illegal .. => 0#12

/-- `type_valid`, bit 26 of `W0` (R100). -/
def Event.typeValidField : Event → Bool
  | .decoded _ _ typeValid .. => typeValid
  | .crcFail .. => false
  | .overflow .. => false
  | .illegal .. => false

/-- `crc_ok`, bit 27 of `W0` (R100). -/
def Event.crcOkField : Event → Bool
  | .decoded .. => true
  | .crcFail .. => false
  | .overflow .. => false
  | .illegal .. => false

/-- Descriptor word `W0` (R100): zero, `crc_ok`, `type_valid`, `type`, `len`, `code` from bit 31 down. -/
def Event.w0 (e : Event) : Word32 :=
  0#4 ++ BitVec.ofBool e.crcOkField ++ BitVec.ofBool e.typeValidField ++ e.typeField ++ e.lenField ++ e.code

/-- Descriptor word `W1` (R100). -/
def Event.w1 : Event → Word32
  | .decoded _ _ _ crc _ => crc.setWidth 32
  | .crcFail _ rxCrc _ _ => rxCrc.setWidth 32
  | .overflow dropped => dropped
  | .illegal cmd => cmd.setWidth 32

/-- Descriptor word `W2` (R100). -/
def Event.w2 : Event → Word32
  | .decoded _ _ _ crc _ => crc.setWidth 32
  | .crcFail _ _ calcCrc _ => calcCrc.setWidth 32
  | .overflow _ => 0#32
  | .illegal _ => 0#32

/-- The data bytes after the descriptor words (R100). -/
def Event.dataBytes : Event → List Byte
  | .decoded _ _ _ _ payload => payload
  | .crcFail _ _ _ dump => dump
  | .overflow _ => []
  | .illegal _ => []

/-- The data bytes as transfers: `evt_word[7:0]` the byte, `evt_is_data` 1, `evt_last` 1 on the last (R100). -/
def dataTransfers : List Byte → List Transfer
  | [] => []
  | [b] => [⟨b.setWidth 32, true, true⟩]
  | b :: c :: rest => ⟨b.setWidth 32, true, false⟩ :: dataTransfers (c :: rest)

/-- An event on the port: three descriptor words, then the data bytes; `evt_last` is 1 on the last transfer, which
is `W2` when there is no data byte (R100). -/
def Event.transfers (e : Event) : List Transfer :=
  ⟨e.w0, false, false⟩ :: ⟨e.w1, false, false⟩ :: ⟨e.w2, false, e.dataBytes.isEmpty⟩ :: dataTransfers e.dataBytes

/-- What an item of the trace sends through the event port. -/
def OutItem.transfers : OutItem → List Transfer
  | .rsp _ => []
  | .evt e => e.transfers

/-- What an item of the trace sends through the response port. -/
def OutItem.responses : OutItem → List Word32
  | .rsp v => [v]
  | .evt _ => []

end Sys2Proof.Machine
end

