-- ==== Sys2Proof/Machine/Flags.lean ====
section
/-! DEFINITION. The status bits the block composes: `LASTHDR` and its fields (10_state.md R29, 41_framer.md R163),
`INFRAME` (R28), the `STATUS` word (R40) and the derived phase (R34). -/

namespace Sys2Proof.Machine

/-- `LEN`: the number of valid bytes, which is the number of listed cells (10_state.md R22, 93 U10). -/
def State.len (s : State) : Nat := s.buf.length

/-- `INFRAME`: 1 if `LEN != 0` (R28). -/
def State.inFrame (s : State) : Bool := s.len != 0

/-- `{ok, tv, type, L}`: bit 23 ok, bit 22 tv, bits 21:10 type, bits 9:0 L (41_framer.md R163). -/
def packLastHdr (ok tv : Bool) (type : Type12) (len : Len10) : BitVec 24 :=
  BitVec.ofBool ok ++ BitVec.ofBool tv ++ type ++ len

/-- `LASTHDR.LEN10`, bits 9:0 (R29). -/
def hdrLen10 (h : BitVec 24) : Len10 := h.extractLsb' 0 10

/-- `LASTHDR.TYPE`, bits 21:10 (R29). -/
def hdrType (h : BitVec 24) : Type12 := h.extractLsb' 10 12

/-- `LASTHDR.TYPEV`, bit 22 (R29). -/
def hdrTypeValid (h : BitVec 24) : Bool := h.getLsbD 22

/-- `LASTHDR.CRCOK`, bit 23 (R29). -/
def hdrCrcOk (h : BitVec 24) : Bool := h.getLsbD 23

/-- `STATUS = {28 zero bits, INFRAME, LASTV, ILL, OVF}`, composed, never stored (R32, R40). -/
def State.statusWord (s : State) : Word32 :=
  0#28 ++ BitVec.ofBool s.inFrame ++ BitVec.ofBool s.lastv ++ BitVec.ofBool s.ill ++ BitVec.ofBool s.ovf

/-- The derived phase, "useful to a reader and used by no rule" (R34). -/
inductive Phase where
  | hunt
  | header
  | body
deriving DecidableEq, Repr

/-- `HUNT` when `LEN = 0`, `HEADER` when `1 <= LEN <= 2`, `BODY` when `LEN >= 3` (R34). -/
def State.phase (s : State) : Phase :=
  if s.len = 0 then .hunt else if s.len ≤ 2 then .header else .body

end Sys2Proof.Machine
end

