-- ==== Sys2Proof/Machine/Ops.lean ====
section
/-! DEFINITION. The named operations the meanings share: byte sequences and bit fields (00_scope.md R7 to R10), the
receive buffer (20_memory.md R66, R67), outputs, the last-frame registers, the counters, the one fault entry
(60_exceptions.md R207) and the two resets (10_state.md R38, 70_reset_and_hazards.md R240). -/

namespace Sys2Proof.Machine

/-! ### Numbers, fields and byte sequences -/

/-- `zext_32(v)` of a number (R8). Above 32 bits the spec states no word: a free value (log entry 6). -/
def zext32 (v : Nat) : Word32 :=
  if v < 2 ^ 32 then BitVec.ofNat 32 v else Config.wideWord v

/-- `v[hi:lo]`, both ends included (R7). -/
def bitField (v hi lo : Nat) : BitVec (hi - lo + 1) := BitVec.ofNat (hi - lo + 1) (v >>> lo)

/-- `be(s)`, the big-endian value of a byte sequence: `be([]) = 0`, `be(s ++ [b]) = (be(s) << 8) | b` (R9). -/
def be (s : List Byte) : Nat := s.foldl (fun v b => (v <<< 8) ||| b.toNat) 0

/-! ### The receive buffer -/

/-- The cells of bytes that stand at offsets `from`, `from + 1`, ... -/
def cellsFrom : Nat → List Byte → Memory
  | _, [] => []
  | a, b :: bs => (a, b) :: cellsFrom (a + 1) bs

/-- The canonical memory that holds these bytes at offsets 0, 1, 2, ... -/
def Memory.ofBytes (bs : List Byte) : Memory := cellsFrom 0 bs

/-- The valid bytes in order, oldest first (10_state.md R22). -/
def Memory.bytes (m : Memory) : List Byte := m.map Prod.snd

/-- The byte listed at an offset, none where no byte is valid (10_state.md R22, 93 U10). -/
def Memory.lookup (m : Memory) (a : Nat) : Option Byte := List.lookup a m

/-- The one canonical form: offsets 0, 1, 2, ..., so strictly rising, with nothing listed that has no value. -/
def Memory.wf (m : Memory) : Bool := m = Memory.ofBytes m.bytes

/-- The valid bytes of `BUF`, `BUF[0]` to `BUF[LEN-1]` (10_state.md R22). -/
def State.bytes (s : State) : List Byte := s.buf.bytes

/-- `BUF[a]`, the model's read of one byte: none at `LEN` and above (10_state.md R22, 20_memory.md R66). -/
def State.byteAt (s : State) (a : Nat) : Option Byte := s.bytes[a]?

/-- Make these the valid bytes of `BUF`, `LEN` their number. Every change of `BUF` goes through here, so the memory
is always left in canonical form. -/
def State.setBytes (s : State) (bs : List Byte) : State := { s with buf := Memory.ofBytes bs }

/-- `bytes(BUF, i, n)` (R9). -/
def State.slice (s : State) (i n : Nat) : List Byte := (s.bytes.drop i).take n

/-- `MemRead(addr, n) = be(bytes(BUF, addr, n))` (R10); every use is below `LEN` (20_memory.md R66). -/
def State.memRead (s : State) (addr n : Nat) : Nat := be (s.slice addr n)

/-- `MemWrite(LEN, 1, b)` then `LEN <- LEN + 1` (R10, 41_framer.md R142). -/
def State.append (s : State) (b : Byte) : State := s.setBytes (s.bytes ++ [b])

/-- `DropFront(k)`: remove the first `k` bytes, the later ones move down (20_memory.md R67). -/
def State.dropFront (s : State) (k : Nat) : State := s.setBytes (s.bytes.drop k)

/-- `LEN <- 0`: every buffered byte is thrown away (41_framer.md R141, R154). -/
def State.emptyBuffer (s : State) : State := s.setBytes []

/-! ### Outputs -/

/-- `emit E(fields)`: append the record to `OUT` (R10); its transfers wait on the event port (30_encoding.md
R100). -/
def State.emit (s : State) (e : Event) : State :=
  { s with out := s.out ++ [.evt e], evtPort := s.evtPort ++ e.transfers }

/-- `respond(v)`: append the response word to `OUT` (R10); it waits on the response port. -/
def State.respond (s : State) (v : Word32) : State :=
  { s with out := s.out ++ [.rsp v], rspPort := s.rspPort ++ [v] }

/-! ### Last-frame registers and counters -/

/-- `WriteLast(L, type, tv, ok, rx, calc)` (41_framer.md R163). -/
def State.writeLast (s : State) (len : Len10) (type : Type12) (tv ok : Bool) (rx comp : Crc24) : State :=
  { s with lasthdr := packLastHdr ok tv type len, lastrx := rx, lastcalc := comp, lastv := true }

/-- A counter's next value, modulo `2^CNT_W` (10_state.md R23, R24). -/
def nextCount (cntW n : Nat) : Nat := (n + 1) % 2 ^ cntW

/-- `MSGS <- (MSGS + 1) mod 2^CNT_W` (41_framer.md R149). -/
def State.countMsg (s : State) : State := { s with msgs := nextCount s.cfg.cntW s.msgs }

/-- `CRCERR <- (CRCERR + 1) mod 2^CNT_W` (41_framer.md R152). -/
def State.countCrcErr (s : State) : State := { s with crcerr := nextCount s.cfg.cntW s.crcerr }

/-! ### Faults -/

/-- The three faults with the values they carry (60_exceptions.md R200). -/
inductive FaultInfo where
  /-- CrcMismatch, raised by PUSH (41_framer.md R152). -/
  | crcMismatch (len : Len10) (rx comp : Crc24) (dump : List Byte)
  /-- BufferOverflow, raised by PUSH (41_framer.md R141). -/
  | bufferOverflow
  /-- IllegalCommand, raised by a reserved encoding (30_encoding.md R94). -/
  | illegalCommand (w : Cmd)
deriving DecidableEq, Repr

/-- The code of a fault "is the code of the event it emits" (60_exceptions.md R200). -/
def FaultInfo.code : FaultInfo → BitVec 4
  | .crcMismatch .. => 2#4
  | .bufferOverflow => 3#4
  | .illegalCommand _ => 4#4

/-- The state writes of a fault (60_exceptions.md R200; the buffer reset of an overflow, 41_framer.md R141). -/
def State.recordFault (s : State) : FaultInfo → State
  | .crcMismatch len rx comp _ => (s.writeLast len 0#12 false false rx comp).countCrcErr
  | .bufferOverflow => { s.emptyBuffer with ovf := true }
  | .illegalCommand _ => { s with ill := true }

/-- The event of a fault (60_exceptions.md R200). -/
def State.faultEvent (s : State) : FaultInfo → Event
  | .crcMismatch len rx comp dump => .crcFail len rx comp dump
  | .bufferOverflow => .overflow (zext32 s.cfg.bufCap)
  | .illegalCommand w => .illegal w

/-- `raise <Fault>(info)`: the fault's state writes, then the emit of its event; it saves nothing and changes
nothing else, and the command goes on at the statement after it (60_exceptions.md R207). -/
def State.raise (s : State) (f : FaultInfo) : State := (s.recordFault f).emit (s.faultEvent f)

/-! ### Resets -/

/-- Every element of 10_state.md R20 takes its reset value of R38. `OUT`, the ports, the inputs and the
configuration are no elements of that list (70_reset_and_hazards.md R242, 42_system.md R182). -/
def State.clear (s : State) : State :=
  { s with acc := 0#24, buf := [], msgs := 0, crcerr := 0, ovf := false, ill := false, lastv := false,
           lasthdr := 0#24, lastrx := 0#24, lastcalc := 0#24 }

/-- `rst` at 1 for one clock edge: the state of R38, and the ports go idle, so what still waits on them is lost
(70_reset_and_hazards.md R240, R241, R250); nothing in `OUT` is withdrawn (R242). -/
def State.hardwareReset (s : State) : State := { s.clear with evtPort := [], rspPort := [] }

/-! ### The ports -/

/-- The event sink accepts one transfer (20_memory.md R72). -/
def State.takeEvent (s : State) : State :=
  { s with evtTaken := s.evtTaken ++ s.evtPort.take 1, evtPort := s.evtPort.drop 1 }

/-- The host accepts one response word (20_memory.md R72). -/
def State.takeResponse (s : State) : State :=
  { s with rspTaken := s.rspTaken ++ s.rspPort.take 1, rspPort := s.rspPort.drop 1 }

/-- The events of earlier commands have been handed over, all of them: without that the block accepts no new
command (20_memory.md R74). -/
def State.deliverEvents (s : State) : State :=
  { s with evtTaken := s.evtTaken ++ s.evtPort, evtPort := [] }

/-- `evt_valid` (30_encoding.md R100). -/
def State.evtValid (s : State) : Bool := !s.evtPort.isEmpty

/-- `rsp_valid` (70_reset_and_hazards.md R240). -/
def State.rspValid (s : State) : Bool := !s.rspPort.isEmpty

end Sys2Proof.Machine
end

