-- ==== Sys2Proof/Machine/Crc.lean ====
section
/-! DEFINITION. Unit C, the CRC-24Q engine (40_crc_engine.md): the functions `crc_step` and `crc24q` and the
commands CRC.CLR and CRC.UPD. -/

namespace Sys2Proof.Machine

/-- One of the eight steps of R120: shift left by one and, if bit 24 is then set, XOR the generator. `t` is held
in the 25 bits R120 gives it after the shift; R122 says no step loses a bit (log entry 8). -/
def crcShift (t : BitVec 25) : BitVec 25 :=
  let t := t <<< 1
  if t.getLsbD 24 then t ^^^ Config.poly else t

/-- `repeat k times` of R120. -/
def crcShifts : Nat → BitVec 25 → BitVec 25
  | 0, t => t
  | k + 1, t => crcShifts k (crcShift t)

/-- `crc_step(a, b)`: XOR `b` into bits 23:16 of `a`, eight steps, mask to 24 bits (R120). -/
def crcStep (a : Crc24) (b : Byte) : Crc24 :=
  (crcShifts 8 ((a ^^^ (b.setWidth 24 <<< 16)).setWidth 25)).setWidth 24

/-- The loop of R121 from an accumulator `a`. -/
def crcFrom (a : Crc24) (s : List Byte) : Crc24 := s.foldl crcStep a

/-- `crc24q(s)` (R121). -/
def crc24q (s : List Byte) : Crc24 := crcFrom Config.crcInit s

/-- CRC.CLR: `ACC <- 0x000000` (R124). -/
def execCrcClr (s : State) : Host.Outcome State Fault Refusal :=
  .next { s with acc := 0x000000#24 }

/-- CRC.UPD b: `ACC <- crc_step(ACC, b)` (R125). -/
def execCrcUpd (b : Byte) (s : State) : Host.Outcome State Fault Refusal :=
  .next { s with acc := crcStep s.acc b }

end Sys2Proof.Machine
end

