-- ==== Sys2Proof/Machine/Framer.lean ====
section
/-! DEFINITION. Unit F, the RTCM3 framer (41_framer.md): PUSH with the eight steps of its extraction loop, and
FLUSH. -/

namespace Sys2Proof.Machine

/-- Step 1, preamble search: while `LEN > 0` and `BUF[0] != 0xD3`, `DropFront(1)` (R144). -/
def State.step1 (s : State) : State := s.setBytes (s.bytes.dropWhile (· != Config.preamble))

/-- Step 3: `L = MemRead(1, 2)[9:0]` (R146). -/
def State.payloadLength (s : State) : Len10 := bitField (s.memRead 1 2) 9 0

/-- Step 4: `n = L + 6`, a natural number from 6 to 1029 (R147). -/
def frameLength (len : Len10) : Nat := Config.hdrBytes + len.toNat + Config.crcBytes

/-- Step 5: `calc = crc24q(bytes(BUF, 0, n - 3))` (R148). -/
def State.calcCrc (s : State) (n : Nat) : Crc24 := crc24q (s.slice 0 (n - Config.crcBytes))

/-- Step 5: `rx = MemRead(n - 3, 3)`, most significant byte first (R148). -/
def State.rxCrc (s : State) (n : Nat) : Crc24 := bitField (s.memRead (n - Config.crcBytes) 3) 23 0

/-- The message type: `MemRead(3, 2)[15:4]` (R150). -/
def State.messageType (s : State) : Type12 := bitField (s.memRead 3 2) 15 4

/-- `TypeOf(L)`: a frame with fewer than two payload bytes has no type (R151). -/
def State.typeOf (s : State) (len : Len10) : Type12 × Bool :=
  if 2 ≤ len.toNat then (s.messageType, true) else (0x000#12, false)

/-- Step 6, success: last-frame registers, `MSGS`, the DECODED event (R149). -/
def State.step6 (s : State) (len : Len10) (rx comp : Crc24) : State :=
  let (type, tv) := s.typeOf len
  ((s.writeLast len type tv true rx comp).countMsg).emit
    (.decoded len type tv rx (s.slice Config.hdrBytes len.toNat))

/-- Step 7, CRC failure: raise CrcMismatch with the first `min(n, DUMP_MAX)` bytes (R152). -/
def State.step7 (s : State) (len : Len10) (n : Nat) (rx comp : Crc24) : State :=
  s.raise (.crcMismatch len rx comp (s.slice 0 (min n s.cfg.dumpMax)))

/-- Steps 5 to 7 on the candidate frame at the front of the buffer (R148, R149, R152). -/
def State.checkCandidate (s : State) (len : Len10) : State :=
  let n := frameLength len
  let comp := s.calcCrc n
  let rx := s.rxCrc n
  if comp = rx then s.step6 len rx comp else s.step7 len n rx comp

/-- The loop of `Extract` (R143), one pass for each unit of fuel. It ends by one of the two returns; the fuel
`extract` gives is never used up, because each further pass has removed at least 6 bytes (R158, log entry 9). -/
def State.extractLoop : Nat → State → State
  | 0, s => s
  | fuel + 1, s =>
    let s := s.step1
    if s.len < Config.minAvail then s
    else if s.len < frameLength s.payloadLength then s
    else
      extractLoop fuel
        ((s.checkCandidate s.payloadLength).dropFront (frameLength s.payloadLength))

/-- `Extract()` (R143). -/
def State.extract (s : State) : State := State.extractLoop (s.len + 1) s

/-- `OverflowCheck()`: `if LEN = BUF_CAP then raise BufferOverflow` (R141). -/
def State.overflowCheck (s : State) : State :=
  if s.len = s.cfg.bufCap then s.raise .bufferOverflow else s

/-- PUSH b: `OverflowCheck(); Append(b); Extract()` (R140). -/
def execPush (b : Byte) (s : State) : Host.Outcome State Fault Refusal :=
  .next ((s.overflowCheck.append b).extract)

/-- FLUSH: `LEN <- 0` (R154). -/
def execFlush (s : State) : Host.Outcome State Fault Refusal :=
  .next s.emptyBuffer

end Sys2Proof.Machine
end

