-- ==== Sys2Proof/Machine/Operands.lean ====
section
/-! DEFINITION. What the operands of the commands stand for: a B-format operand is the data byte itself
(30_encoding.md R92), an R-format operand is an index of the register table (10_state.md R32). -/

namespace Sys2Proof.Machine

/-- The number column of the register table (R32). -/
def regNumber : RegName → RegNum
  | .status => 0x00#8
  | .buflen => 0x01#8
  | .msgs => 0x02#8
  | .crcerr => 0x03#8
  | .lasthdr => 0x04#8
  | .lastrx => 0x05#8
  | .lastcalc => 0x06#8
  | .crcacc => 0x07#8
  | .poly => 0x08#8
  | .bufcap => 0x09#8

/-- The register an R-format operand names; `0x0A` to `0xFF` are reserved (R32). -/
def regNamed (r : RegNum) : Option RegName :=
  match r.toNat with
  | 0 => some .status
  | 1 => some .buflen
  | 2 => some .msgs
  | 3 => some .crcerr
  | 4 => some .lasthdr
  | 5 => some .lastrx
  | 6 => some .lastcalc
  | 7 => some .crcacc
  | 8 => some .poly
  | 9 => some .bufcap
  | _ => none

/-- The `x[i]` column of the register table (R31, R32). -/
def State.regWord (s : State) : RegName → Word32
  | .status => s.statusWord
  | .buflen => zext32 s.len
  | .msgs => zext32 s.msgs
  | .crcerr => zext32 s.crcerr
  | .lasthdr => s.lasthdr.setWidth 32
  | .lastrx => s.lastrx.setWidth 32
  | .lastcalc => s.lastcalc.setWidth 32
  | .crcacc => s.acc.setWidth 32
  | .poly => 0x01864CFB#32
  | .bufcap => zext32 s.cfg.bufCap

/-- `x[r]`, the 32-bit word read for register number `r`; a reserved number reads as zero (R32). -/
def State.readReg (s : State) (r : RegNum) : Word32 :=
  match regNamed r with
  | some name => s.regWord name
  | none => 0x00000000#32

end Sys2Proof.Machine
end

