-- ==== Sys2Proof/Machine/System.lean ====
section
/-! DEFINITION. The system commands NOP, RDREG and SRST (42_system.md) and what a reserved encoding does
(30_encoding.md R94). -/

namespace Sys2Proof.Machine

/-- NOP: nothing is read, written or appended (R180). -/
def execNop (s : State) : Host.Outcome State Fault Refusal :=
  .next s

/-- RDREG r: `respond(x[r])` (R181). -/
def execRdreg (r : RegNum) (s : State) : Host.Outcome State Fault Refusal :=
  .next (s.respond (s.readReg r))

/-- SRST: every element of 10_state.md R20 takes its reset value; nothing is appended to `OUT`, nothing withdrawn
(R182). -/
def execSrst (s : State) : Host.Outcome State Fault Refusal :=
  .next s.clear

/-- A reserved encoding raises IllegalCommand and changes nothing else (30_encoding.md R94, 60_exceptions.md
R203). -/
def reservedEncoding (w : Cmd) (s : State) : State :=
  s.raise (.illegalCommand w)

end Sys2Proof.Machine
end

