-- ==== Sys2Proof/Machine/Dispatch.lean ====
section
/-! DEFINITION. One arm for each constructor of Instr, each one call of its meaning. -/

namespace Sys2Proof.Machine

def exec (i : Instr) (s : State) : Host.Outcome State Fault Refusal :=
  match i with
  | .nop => Sys2Proof.Machine.execNop s
  | .push b => Sys2Proof.Machine.execPush b s
  | .flush => Sys2Proof.Machine.execFlush s
  | .crcClr => Sys2Proof.Machine.execCrcClr s
  | .crcUpd b => Sys2Proof.Machine.execCrcUpd b s
  | .rdreg r => Sys2Proof.Machine.execRdreg r s
  | .srst => Sys2Proof.Machine.execSrst s

end Sys2Proof.Machine
end

