-- ==== Sys2Proof/Machine/Ports.lean ====
section
/-! DEFINITION. What one input from outside does to the block: a command is accepted, decoded and executed to
completion (20_memory.md R68, 30_encoding.md R96), the reset pin resets, a taking moves an output from its port
(20_memory.md R72, 70_reset_and_hazards.md R240). -/

namespace Sys2Proof.Machine

/-- Execute the command word `w`: a command by `exec`, a reserved encoding by its fault (R93, R94, R96). -/
def runWord (w : Cmd) (s : State) : Host.Outcome State Fault Refusal :=
  match decode w with
  | .ok i => exec i s
  | .error _ => .next (reservedEncoding w s)

/-- The block as it accepts the command at the head of the inputs: the command is no longer presented, and the
events of earlier commands have been handed over (20_memory.md R74). `rest` is what the outside does after. -/
def State.accept (s : State) (rest : List PortInput) : State := ({ s with inputs := rest }).deliverEvents

/-- What one input does; `rest` is what the outside does after it. -/
def takeInput (s : State) (rest : List PortInput) : PortInput → Host.Outcome State Fault Refusal
  | .command w => runWord w (s.accept rest)
  | .reset => .next ({ s with inputs := rest }).hardwareReset
  | .takeEvent => .next ({ s with inputs := rest }).takeEvent
  | .takeResponse => .next ({ s with inputs := rest }).takeResponse

/-- The command port presents the word `w` next (20_memory.md R72, log entry 1). -/
def State.present (s : State) (w : Cmd) : State := { s with inputs := .command w :: s.inputs }

end Sys2Proof.Machine
end

