-- ==== Sys2Proof/Machine/Step.lean ====
section
/-! DEFINITION. One step: the next thing the outside does, or nothing. -/

namespace Sys2Proof.Machine

/-- One step. With no input the block holds its state unchanged (60_exceptions.md R215). -/
def step (s : State) : Host.Outcome State Fault Refusal :=
  match s.inputs with
  | [] => .next s
  | i :: rest => takeInput s rest i

/-- `s` with the word presented on the command port as the next input. The block fetches nothing (10_state.md
R34): a command is handed to it (log entry 1). -/
def State.withFetchWord (s : State) (nbits w : Nat) : State :=
  s.present (BitVec.ofNat 12 (w % 2 ^ nbits))

end Sys2Proof.Machine
end

