-- ==== Sys2Proof/Laws/State.lean ====
section
/-! SUPPORT. What each named update of the state leaves in each field, one lemma for each field of each update, so
that no later proof unfolds a record update. -/

namespace Sys2Proof.Machine

variable (s : State)

/-! ### setBytes -/

@[simp] theorem State.setBytes_acc (bs : List Byte) : (s.setBytes bs).acc = s.acc := rfl
@[simp] theorem State.setBytes_buf (bs : List Byte) : (s.setBytes bs).buf = Memory.ofBytes bs := rfl
@[simp] theorem State.setBytes_msgs (bs : List Byte) : (s.setBytes bs).msgs = s.msgs := rfl
@[simp] theorem State.setBytes_crcerr (bs : List Byte) : (s.setBytes bs).crcerr = s.crcerr := rfl
@[simp] theorem State.setBytes_ovf (bs : List Byte) : (s.setBytes bs).ovf = s.ovf := rfl
@[simp] theorem State.setBytes_ill (bs : List Byte) : (s.setBytes bs).ill = s.ill := rfl
@[simp] theorem State.setBytes_lastv (bs : List Byte) : (s.setBytes bs).lastv = s.lastv := rfl
@[simp] theorem State.setBytes_lasthdr (bs : List Byte) : (s.setBytes bs).lasthdr = s.lasthdr := rfl
@[simp] theorem State.setBytes_lastrx (bs : List Byte) : (s.setBytes bs).lastrx = s.lastrx := rfl
@[simp] theorem State.setBytes_lastcalc (bs : List Byte) : (s.setBytes bs).lastcalc = s.lastcalc := rfl
@[simp] theorem State.setBytes_out (bs : List Byte) : (s.setBytes bs).out = s.out := rfl
@[simp] theorem State.setBytes_inputs (bs : List Byte) : (s.setBytes bs).inputs = s.inputs := rfl
@[simp] theorem State.setBytes_evtPort (bs : List Byte) : (s.setBytes bs).evtPort = s.evtPort := rfl
@[simp] theorem State.setBytes_evtTaken (bs : List Byte) : (s.setBytes bs).evtTaken = s.evtTaken := rfl
@[simp] theorem State.setBytes_rspPort (bs : List Byte) : (s.setBytes bs).rspPort = s.rspPort := rfl
@[simp] theorem State.setBytes_rspTaken (bs : List Byte) : (s.setBytes bs).rspTaken = s.rspTaken := rfl
@[simp] theorem State.setBytes_cfg (bs : List Byte) : (s.setBytes bs).cfg = s.cfg := rfl

/-! ### append -/

@[simp] theorem State.append_acc (b : Byte) : (s.append b).acc = s.acc := rfl
@[simp] theorem State.append_buf (b : Byte) : (s.append b).buf = Memory.ofBytes (s.bytes ++ [b]) := rfl
@[simp] theorem State.append_msgs (b : Byte) : (s.append b).msgs = s.msgs := rfl
@[simp] theorem State.append_crcerr (b : Byte) : (s.append b).crcerr = s.crcerr := rfl
@[simp] theorem State.append_ovf (b : Byte) : (s.append b).ovf = s.ovf := rfl
@[simp] theorem State.append_ill (b : Byte) : (s.append b).ill = s.ill := rfl
@[simp] theorem State.append_lastv (b : Byte) : (s.append b).lastv = s.lastv := rfl
@[simp] theorem State.append_lasthdr (b : Byte) : (s.append b).lasthdr = s.lasthdr := rfl
@[simp] theorem State.append_lastrx (b : Byte) : (s.append b).lastrx = s.lastrx := rfl
@[simp] theorem State.append_lastcalc (b : Byte) : (s.append b).lastcalc = s.lastcalc := rfl
@[simp] theorem State.append_out (b : Byte) : (s.append b).out = s.out := rfl
@[simp] theorem State.append_inputs (b : Byte) : (s.append b).inputs = s.inputs := rfl
@[simp] theorem State.append_evtPort (b : Byte) : (s.append b).evtPort = s.evtPort := rfl
@[simp] theorem State.append_evtTaken (b : Byte) : (s.append b).evtTaken = s.evtTaken := rfl
@[simp] theorem State.append_rspPort (b : Byte) : (s.append b).rspPort = s.rspPort := rfl
@[simp] theorem State.append_rspTaken (b : Byte) : (s.append b).rspTaken = s.rspTaken := rfl
@[simp] theorem State.append_cfg (b : Byte) : (s.append b).cfg = s.cfg := rfl

/-! ### dropFront -/

@[simp] theorem State.dropFront_acc (k : Nat) : (s.dropFront k).acc = s.acc := rfl
@[simp] theorem State.dropFront_buf (k : Nat) : (s.dropFront k).buf = Memory.ofBytes (s.bytes.drop k) := rfl
@[simp] theorem State.dropFront_msgs (k : Nat) : (s.dropFront k).msgs = s.msgs := rfl
@[simp] theorem State.dropFront_crcerr (k : Nat) : (s.dropFront k).crcerr = s.crcerr := rfl
@[simp] theorem State.dropFront_ovf (k : Nat) : (s.dropFront k).ovf = s.ovf := rfl
@[simp] theorem State.dropFront_ill (k : Nat) : (s.dropFront k).ill = s.ill := rfl
@[simp] theorem State.dropFront_lastv (k : Nat) : (s.dropFront k).lastv = s.lastv := rfl
@[simp] theorem State.dropFront_lasthdr (k : Nat) : (s.dropFront k).lasthdr = s.lasthdr := rfl
@[simp] theorem State.dropFront_lastrx (k : Nat) : (s.dropFront k).lastrx = s.lastrx := rfl
@[simp] theorem State.dropFront_lastcalc (k : Nat) : (s.dropFront k).lastcalc = s.lastcalc := rfl
@[simp] theorem State.dropFront_out (k : Nat) : (s.dropFront k).out = s.out := rfl
@[simp] theorem State.dropFront_inputs (k : Nat) : (s.dropFront k).inputs = s.inputs := rfl
@[simp] theorem State.dropFront_evtPort (k : Nat) : (s.dropFront k).evtPort = s.evtPort := rfl
@[simp] theorem State.dropFront_evtTaken (k : Nat) : (s.dropFront k).evtTaken = s.evtTaken := rfl
@[simp] theorem State.dropFront_rspPort (k : Nat) : (s.dropFront k).rspPort = s.rspPort := rfl
@[simp] theorem State.dropFront_rspTaken (k : Nat) : (s.dropFront k).rspTaken = s.rspTaken := rfl
@[simp] theorem State.dropFront_cfg (k : Nat) : (s.dropFront k).cfg = s.cfg := rfl

/-! ### emptyBuffer -/

@[simp] theorem State.emptyBuffer_acc : (s.emptyBuffer).acc = s.acc := rfl
@[simp] theorem State.emptyBuffer_buf : (s.emptyBuffer).buf = [] := rfl
@[simp] theorem State.emptyBuffer_msgs : (s.emptyBuffer).msgs = s.msgs := rfl
@[simp] theorem State.emptyBuffer_crcerr : (s.emptyBuffer).crcerr = s.crcerr := rfl
@[simp] theorem State.emptyBuffer_ovf : (s.emptyBuffer).ovf = s.ovf := rfl
@[simp] theorem State.emptyBuffer_ill : (s.emptyBuffer).ill = s.ill := rfl
@[simp] theorem State.emptyBuffer_lastv : (s.emptyBuffer).lastv = s.lastv := rfl
@[simp] theorem State.emptyBuffer_lasthdr : (s.emptyBuffer).lasthdr = s.lasthdr := rfl
@[simp] theorem State.emptyBuffer_lastrx : (s.emptyBuffer).lastrx = s.lastrx := rfl
@[simp] theorem State.emptyBuffer_lastcalc : (s.emptyBuffer).lastcalc = s.lastcalc := rfl
@[simp] theorem State.emptyBuffer_out : (s.emptyBuffer).out = s.out := rfl
@[simp] theorem State.emptyBuffer_inputs : (s.emptyBuffer).inputs = s.inputs := rfl
@[simp] theorem State.emptyBuffer_evtPort : (s.emptyBuffer).evtPort = s.evtPort := rfl
@[simp] theorem State.emptyBuffer_evtTaken : (s.emptyBuffer).evtTaken = s.evtTaken := rfl
@[simp] theorem State.emptyBuffer_rspPort : (s.emptyBuffer).rspPort = s.rspPort := rfl
@[simp] theorem State.emptyBuffer_rspTaken : (s.emptyBuffer).rspTaken = s.rspTaken := rfl
@[simp] theorem State.emptyBuffer_cfg : (s.emptyBuffer).cfg = s.cfg := rfl

/-! ### emit -/

@[simp] theorem State.emit_acc (e : Event) : (s.emit e).acc = s.acc := rfl
@[simp] theorem State.emit_buf (e : Event) : (s.emit e).buf = s.buf := rfl
@[simp] theorem State.emit_msgs (e : Event) : (s.emit e).msgs = s.msgs := rfl
@[simp] theorem State.emit_crcerr (e : Event) : (s.emit e).crcerr = s.crcerr := rfl
@[simp] theorem State.emit_ovf (e : Event) : (s.emit e).ovf = s.ovf := rfl
@[simp] theorem State.emit_ill (e : Event) : (s.emit e).ill = s.ill := rfl
@[simp] theorem State.emit_lastv (e : Event) : (s.emit e).lastv = s.lastv := rfl
@[simp] theorem State.emit_lasthdr (e : Event) : (s.emit e).lasthdr = s.lasthdr := rfl
@[simp] theorem State.emit_lastrx (e : Event) : (s.emit e).lastrx = s.lastrx := rfl
@[simp] theorem State.emit_lastcalc (e : Event) : (s.emit e).lastcalc = s.lastcalc := rfl
@[simp] theorem State.emit_out (e : Event) : (s.emit e).out = s.out ++ [.evt e] := rfl
@[simp] theorem State.emit_inputs (e : Event) : (s.emit e).inputs = s.inputs := rfl
@[simp] theorem State.emit_evtPort (e : Event) : (s.emit e).evtPort = s.evtPort ++ e.transfers := rfl
@[simp] theorem State.emit_evtTaken (e : Event) : (s.emit e).evtTaken = s.evtTaken := rfl
@[simp] theorem State.emit_rspPort (e : Event) : (s.emit e).rspPort = s.rspPort := rfl
@[simp] theorem State.emit_rspTaken (e : Event) : (s.emit e).rspTaken = s.rspTaken := rfl
@[simp] theorem State.emit_cfg (e : Event) : (s.emit e).cfg = s.cfg := rfl

/-! ### respond -/

@[simp] theorem State.respond_acc (v : Word32) : (s.respond v).acc = s.acc := rfl
@[simp] theorem State.respond_buf (v : Word32) : (s.respond v).buf = s.buf := rfl
@[simp] theorem State.respond_msgs (v : Word32) : (s.respond v).msgs = s.msgs := rfl
@[simp] theorem State.respond_crcerr (v : Word32) : (s.respond v).crcerr = s.crcerr := rfl
@[simp] theorem State.respond_ovf (v : Word32) : (s.respond v).ovf = s.ovf := rfl
@[simp] theorem State.respond_ill (v : Word32) : (s.respond v).ill = s.ill := rfl
@[simp] theorem State.respond_lastv (v : Word32) : (s.respond v).lastv = s.lastv := rfl
@[simp] theorem State.respond_lasthdr (v : Word32) : (s.respond v).lasthdr = s.lasthdr := rfl
@[simp] theorem State.respond_lastrx (v : Word32) : (s.respond v).lastrx = s.lastrx := rfl
@[simp] theorem State.respond_lastcalc (v : Word32) : (s.respond v).lastcalc = s.lastcalc := rfl
@[simp] theorem State.respond_out (v : Word32) : (s.respond v).out = s.out ++ [.rsp v] := rfl
@[simp] theorem State.respond_inputs (v : Word32) : (s.respond v).inputs = s.inputs := rfl
@[simp] theorem State.respond_evtPort (v : Word32) : (s.respond v).evtPort = s.evtPort := rfl
@[simp] theorem State.respond_evtTaken (v : Word32) : (s.respond v).evtTaken = s.evtTaken := rfl
@[simp] theorem State.respond_rspPort (v : Word32) : (s.respond v).rspPort = s.rspPort ++ [v] := rfl
@[simp] theorem State.respond_rspTaken (v : Word32) : (s.respond v).rspTaken = s.rspTaken := rfl
@[simp] theorem State.respond_cfg (v : Word32) : (s.respond v).cfg = s.cfg := rfl

/-! ### writeLast -/

@[simp] theorem State.writeLast_acc (len : Len10) (type : Type12) (tv ok : Bool) (rx comp : Crc24) :
    (s.writeLast len type tv ok rx comp).acc = s.acc := rfl
@[simp] theorem State.writeLast_buf (len : Len10) (type : Type12) (tv ok : Bool) (rx comp : Crc24) :
    (s.writeLast len type tv ok rx comp).buf = s.buf := rfl
@[simp] theorem State.writeLast_msgs (len : Len10) (type : Type12) (tv ok : Bool) (rx comp : Crc24) :
    (s.writeLast len type tv ok rx comp).msgs = s.msgs := rfl
@[simp] theorem State.writeLast_crcerr (len : Len10) (type : Type12) (tv ok : Bool) (rx comp : Crc24) :
    (s.writeLast len type tv ok rx comp).crcerr = s.crcerr := rfl
@[simp] theorem State.writeLast_ovf (len : Len10) (type : Type12) (tv ok : Bool) (rx comp : Crc24) :
    (s.writeLast len type tv ok rx comp).ovf = s.ovf := rfl
@[simp] theorem State.writeLast_ill (len : Len10) (type : Type12) (tv ok : Bool) (rx comp : Crc24) :
    (s.writeLast len type tv ok rx comp).ill = s.ill := rfl
@[simp] theorem State.writeLast_lastv (len : Len10) (type : Type12) (tv ok : Bool) (rx comp : Crc24) :
    (s.writeLast len type tv ok rx comp).lastv = true := rfl
@[simp] theorem State.writeLast_lasthdr (len : Len10) (type : Type12) (tv ok : Bool) (rx comp : Crc24) :
    (s.writeLast len type tv ok rx comp).lasthdr = packLastHdr ok tv type len := rfl
@[simp] theorem State.writeLast_lastrx (len : Len10) (type : Type12) (tv ok : Bool) (rx comp : Crc24) :
    (s.writeLast len type tv ok rx comp).lastrx = rx := rfl
@[simp] theorem State.writeLast_lastcalc (len : Len10) (type : Type12) (tv ok : Bool) (rx comp : Crc24) :
    (s.writeLast len type tv ok rx comp).lastcalc = comp := rfl
@[simp] theorem State.writeLast_out (len : Len10) (type : Type12) (tv ok : Bool) (rx comp : Crc24) :
    (s.writeLast len type tv ok rx comp).out = s.out := rfl
@[simp] theorem State.writeLast_inputs (len : Len10) (type : Type12) (tv ok : Bool) (rx comp : Crc24) :
    (s.writeLast len type tv ok rx comp).inputs = s.inputs := rfl
@[simp] theorem State.writeLast_evtPort (len : Len10) (type : Type12) (tv ok : Bool) (rx comp : Crc24) :
    (s.writeLast len type tv ok rx comp).evtPort = s.evtPort := rfl
@[simp] theorem State.writeLast_evtTaken (len : Len10) (type : Type12) (tv ok : Bool) (rx comp : Crc24) :
    (s.writeLast len type tv ok rx comp).evtTaken = s.evtTaken := rfl
@[simp] theorem State.writeLast_rspPort (len : Len10) (type : Type12) (tv ok : Bool) (rx comp : Crc24) :
    (s.writeLast len type tv ok rx comp).rspPort = s.rspPort := rfl
@[simp] theorem State.writeLast_rspTaken (len : Len10) (type : Type12) (tv ok : Bool) (rx comp : Crc24) :
    (s.writeLast len type tv ok rx comp).rspTaken = s.rspTaken := rfl
@[simp] theorem State.writeLast_cfg (len : Len10) (type : Type12) (tv ok : Bool) (rx comp : Crc24) :
    (s.writeLast len type tv ok rx comp).cfg = s.cfg := rfl

/-! ### countMsg -/

@[simp] theorem State.countMsg_acc : (s.countMsg).acc = s.acc := rfl
@[simp] theorem State.countMsg_buf : (s.countMsg).buf = s.buf := rfl
@[simp] theorem State.countMsg_msgs : (s.countMsg).msgs = nextCount s.cfg.cntW s.msgs := rfl
@[simp] theorem State.countMsg_crcerr : (s.countMsg).crcerr = s.crcerr := rfl
@[simp] theorem State.countMsg_ovf : (s.countMsg).ovf = s.ovf := rfl
@[simp] theorem State.countMsg_ill : (s.countMsg).ill = s.ill := rfl
@[simp] theorem State.countMsg_lastv : (s.countMsg).lastv = s.lastv := rfl
@[simp] theorem State.countMsg_lasthdr : (s.countMsg).lasthdr = s.lasthdr := rfl
@[simp] theorem State.countMsg_lastrx : (s.countMsg).lastrx = s.lastrx := rfl
@[simp] theorem State.countMsg_lastcalc : (s.countMsg).lastcalc = s.lastcalc := rfl
@[simp] theorem State.countMsg_out : (s.countMsg).out = s.out := rfl
@[simp] theorem State.countMsg_inputs : (s.countMsg).inputs = s.inputs := rfl
@[simp] theorem State.countMsg_evtPort : (s.countMsg).evtPort = s.evtPort := rfl
@[simp] theorem State.countMsg_evtTaken : (s.countMsg).evtTaken = s.evtTaken := rfl
@[simp] theorem State.countMsg_rspPort : (s.countMsg).rspPort = s.rspPort := rfl
@[simp] theorem State.countMsg_rspTaken : (s.countMsg).rspTaken = s.rspTaken := rfl
@[simp] theorem State.countMsg_cfg : (s.countMsg).cfg = s.cfg := rfl

/-! ### countCrcErr -/

@[simp] theorem State.countCrcErr_acc : (s.countCrcErr).acc = s.acc := rfl
@[simp] theorem State.countCrcErr_buf : (s.countCrcErr).buf = s.buf := rfl
@[simp] theorem State.countCrcErr_msgs : (s.countCrcErr).msgs = s.msgs := rfl
@[simp] theorem State.countCrcErr_crcerr : (s.countCrcErr).crcerr = nextCount s.cfg.cntW s.crcerr := rfl
@[simp] theorem State.countCrcErr_ovf : (s.countCrcErr).ovf = s.ovf := rfl
@[simp] theorem State.countCrcErr_ill : (s.countCrcErr).ill = s.ill := rfl
@[simp] theorem State.countCrcErr_lastv : (s.countCrcErr).lastv = s.lastv := rfl
@[simp] theorem State.countCrcErr_lasthdr : (s.countCrcErr).lasthdr = s.lasthdr := rfl
@[simp] theorem State.countCrcErr_lastrx : (s.countCrcErr).lastrx = s.lastrx := rfl
@[simp] theorem State.countCrcErr_lastcalc : (s.countCrcErr).lastcalc = s.lastcalc := rfl
@[simp] theorem State.countCrcErr_out : (s.countCrcErr).out = s.out := rfl
@[simp] theorem State.countCrcErr_inputs : (s.countCrcErr).inputs = s.inputs := rfl
@[simp] theorem State.countCrcErr_evtPort : (s.countCrcErr).evtPort = s.evtPort := rfl
@[simp] theorem State.countCrcErr_evtTaken : (s.countCrcErr).evtTaken = s.evtTaken := rfl
@[simp] theorem State.countCrcErr_rspPort : (s.countCrcErr).rspPort = s.rspPort := rfl
@[simp] theorem State.countCrcErr_rspTaken : (s.countCrcErr).rspTaken = s.rspTaken := rfl
@[simp] theorem State.countCrcErr_cfg : (s.countCrcErr).cfg = s.cfg := rfl

/-! ### clear -/

@[simp] theorem State.clear_acc : (s.clear).acc = 0#24 := rfl
@[simp] theorem State.clear_buf : (s.clear).buf = [] := rfl
@[simp] theorem State.clear_msgs : (s.clear).msgs = 0 := rfl
@[simp] theorem State.clear_crcerr : (s.clear).crcerr = 0 := rfl
@[simp] theorem State.clear_ovf : (s.clear).ovf = false := rfl
@[simp] theorem State.clear_ill : (s.clear).ill = false := rfl
@[simp] theorem State.clear_lastv : (s.clear).lastv = false := rfl
@[simp] theorem State.clear_lasthdr : (s.clear).lasthdr = 0#24 := rfl
@[simp] theorem State.clear_lastrx : (s.clear).lastrx = 0#24 := rfl
@[simp] theorem State.clear_lastcalc : (s.clear).lastcalc = 0#24 := rfl
@[simp] theorem State.clear_out : (s.clear).out = s.out := rfl
@[simp] theorem State.clear_inputs : (s.clear).inputs = s.inputs := rfl
@[simp] theorem State.clear_evtPort : (s.clear).evtPort = s.evtPort := rfl
@[simp] theorem State.clear_evtTaken : (s.clear).evtTaken = s.evtTaken := rfl
@[simp] theorem State.clear_rspPort : (s.clear).rspPort = s.rspPort := rfl
@[simp] theorem State.clear_rspTaken : (s.clear).rspTaken = s.rspTaken := rfl
@[simp] theorem State.clear_cfg : (s.clear).cfg = s.cfg := rfl

/-! ### hardwareReset -/

@[simp] theorem State.hardwareReset_acc : (s.hardwareReset).acc = 0#24 := rfl
@[simp] theorem State.hardwareReset_buf : (s.hardwareReset).buf = [] := rfl
@[simp] theorem State.hardwareReset_msgs : (s.hardwareReset).msgs = 0 := rfl
@[simp] theorem State.hardwareReset_crcerr : (s.hardwareReset).crcerr = 0 := rfl
@[simp] theorem State.hardwareReset_ovf : (s.hardwareReset).ovf = false := rfl
@[simp] theorem State.hardwareReset_ill : (s.hardwareReset).ill = false := rfl
@[simp] theorem State.hardwareReset_lastv : (s.hardwareReset).lastv = false := rfl
@[simp] theorem State.hardwareReset_lasthdr : (s.hardwareReset).lasthdr = 0#24 := rfl
@[simp] theorem State.hardwareReset_lastrx : (s.hardwareReset).lastrx = 0#24 := rfl
@[simp] theorem State.hardwareReset_lastcalc : (s.hardwareReset).lastcalc = 0#24 := rfl
@[simp] theorem State.hardwareReset_out : (s.hardwareReset).out = s.out := rfl
@[simp] theorem State.hardwareReset_inputs : (s.hardwareReset).inputs = s.inputs := rfl
@[simp] theorem State.hardwareReset_evtPort : (s.hardwareReset).evtPort = [] := rfl
@[simp] theorem State.hardwareReset_evtTaken : (s.hardwareReset).evtTaken = s.evtTaken := rfl
@[simp] theorem State.hardwareReset_rspPort : (s.hardwareReset).rspPort = [] := rfl
@[simp] theorem State.hardwareReset_rspTaken : (s.hardwareReset).rspTaken = s.rspTaken := rfl
@[simp] theorem State.hardwareReset_cfg : (s.hardwareReset).cfg = s.cfg := rfl

/-! ### takeEvent -/

@[simp] theorem State.takeEvent_acc : (s.takeEvent).acc = s.acc := rfl
@[simp] theorem State.takeEvent_buf : (s.takeEvent).buf = s.buf := rfl
@[simp] theorem State.takeEvent_msgs : (s.takeEvent).msgs = s.msgs := rfl
@[simp] theorem State.takeEvent_crcerr : (s.takeEvent).crcerr = s.crcerr := rfl
@[simp] theorem State.takeEvent_ovf : (s.takeEvent).ovf = s.ovf := rfl
@[simp] theorem State.takeEvent_ill : (s.takeEvent).ill = s.ill := rfl
@[simp] theorem State.takeEvent_lastv : (s.takeEvent).lastv = s.lastv := rfl
@[simp] theorem State.takeEvent_lasthdr : (s.takeEvent).lasthdr = s.lasthdr := rfl
@[simp] theorem State.takeEvent_lastrx : (s.takeEvent).lastrx = s.lastrx := rfl
@[simp] theorem State.takeEvent_lastcalc : (s.takeEvent).lastcalc = s.lastcalc := rfl
@[simp] theorem State.takeEvent_out : (s.takeEvent).out = s.out := rfl
@[simp] theorem State.takeEvent_inputs : (s.takeEvent).inputs = s.inputs := rfl
@[simp] theorem State.takeEvent_evtPort : (s.takeEvent).evtPort = s.evtPort.drop 1 := rfl
@[simp] theorem State.takeEvent_evtTaken : (s.takeEvent).evtTaken = s.evtTaken ++ s.evtPort.take 1 := rfl
@[simp] theorem State.takeEvent_rspPort : (s.takeEvent).rspPort = s.rspPort := rfl
@[simp] theorem State.takeEvent_rspTaken : (s.takeEvent).rspTaken = s.rspTaken := rfl
@[simp] theorem State.takeEvent_cfg : (s.takeEvent).cfg = s.cfg := rfl

/-! ### takeResponse -/

@[simp] theorem State.takeResponse_acc : (s.takeResponse).acc = s.acc := rfl
@[simp] theorem State.takeResponse_buf : (s.takeResponse).buf = s.buf := rfl
@[simp] theorem State.takeResponse_msgs : (s.takeResponse).msgs = s.msgs := rfl
@[simp] theorem State.takeResponse_crcerr : (s.takeResponse).crcerr = s.crcerr := rfl
@[simp] theorem State.takeResponse_ovf : (s.takeResponse).ovf = s.ovf := rfl
@[simp] theorem State.takeResponse_ill : (s.takeResponse).ill = s.ill := rfl
@[simp] theorem State.takeResponse_lastv : (s.takeResponse).lastv = s.lastv := rfl
@[simp] theorem State.takeResponse_lasthdr : (s.takeResponse).lasthdr = s.lasthdr := rfl
@[simp] theorem State.takeResponse_lastrx : (s.takeResponse).lastrx = s.lastrx := rfl
@[simp] theorem State.takeResponse_lastcalc : (s.takeResponse).lastcalc = s.lastcalc := rfl
@[simp] theorem State.takeResponse_out : (s.takeResponse).out = s.out := rfl
@[simp] theorem State.takeResponse_inputs : (s.takeResponse).inputs = s.inputs := rfl
@[simp] theorem State.takeResponse_evtPort : (s.takeResponse).evtPort = s.evtPort := rfl
@[simp] theorem State.takeResponse_evtTaken : (s.takeResponse).evtTaken = s.evtTaken := rfl
@[simp] theorem State.takeResponse_rspPort : (s.takeResponse).rspPort = s.rspPort.drop 1 := rfl
@[simp] theorem State.takeResponse_rspTaken : (s.takeResponse).rspTaken = s.rspTaken ++ s.rspPort.take 1 := rfl
@[simp] theorem State.takeResponse_cfg : (s.takeResponse).cfg = s.cfg := rfl

/-! ### deliverEvents -/

@[simp] theorem State.deliverEvents_acc : (s.deliverEvents).acc = s.acc := rfl
@[simp] theorem State.deliverEvents_buf : (s.deliverEvents).buf = s.buf := rfl
@[simp] theorem State.deliverEvents_msgs : (s.deliverEvents).msgs = s.msgs := rfl
@[simp] theorem State.deliverEvents_crcerr : (s.deliverEvents).crcerr = s.crcerr := rfl
@[simp] theorem State.deliverEvents_ovf : (s.deliverEvents).ovf = s.ovf := rfl
@[simp] theorem State.deliverEvents_ill : (s.deliverEvents).ill = s.ill := rfl
@[simp] theorem State.deliverEvents_lastv : (s.deliverEvents).lastv = s.lastv := rfl
@[simp] theorem State.deliverEvents_lasthdr : (s.deliverEvents).lasthdr = s.lasthdr := rfl
@[simp] theorem State.deliverEvents_lastrx : (s.deliverEvents).lastrx = s.lastrx := rfl
@[simp] theorem State.deliverEvents_lastcalc : (s.deliverEvents).lastcalc = s.lastcalc := rfl
@[simp] theorem State.deliverEvents_out : (s.deliverEvents).out = s.out := rfl
@[simp] theorem State.deliverEvents_inputs : (s.deliverEvents).inputs = s.inputs := rfl
@[simp] theorem State.deliverEvents_evtPort : (s.deliverEvents).evtPort = [] := rfl
@[simp] theorem State.deliverEvents_evtTaken : (s.deliverEvents).evtTaken = s.evtTaken ++ s.evtPort := rfl
@[simp] theorem State.deliverEvents_rspPort : (s.deliverEvents).rspPort = s.rspPort := rfl
@[simp] theorem State.deliverEvents_rspTaken : (s.deliverEvents).rspTaken = s.rspTaken := rfl
@[simp] theorem State.deliverEvents_cfg : (s.deliverEvents).cfg = s.cfg := rfl

/-! ### accept -/

@[simp] theorem State.accept_acc (rest : List PortInput) : (s.accept rest).acc = s.acc := rfl
@[simp] theorem State.accept_buf (rest : List PortInput) : (s.accept rest).buf = s.buf := rfl
@[simp] theorem State.accept_msgs (rest : List PortInput) : (s.accept rest).msgs = s.msgs := rfl
@[simp] theorem State.accept_crcerr (rest : List PortInput) : (s.accept rest).crcerr = s.crcerr := rfl
@[simp] theorem State.accept_ovf (rest : List PortInput) : (s.accept rest).ovf = s.ovf := rfl
@[simp] theorem State.accept_ill (rest : List PortInput) : (s.accept rest).ill = s.ill := rfl
@[simp] theorem State.accept_lastv (rest : List PortInput) : (s.accept rest).lastv = s.lastv := rfl
@[simp] theorem State.accept_lasthdr (rest : List PortInput) : (s.accept rest).lasthdr = s.lasthdr := rfl
@[simp] theorem State.accept_lastrx (rest : List PortInput) : (s.accept rest).lastrx = s.lastrx := rfl
@[simp] theorem State.accept_lastcalc (rest : List PortInput) : (s.accept rest).lastcalc = s.lastcalc := rfl
@[simp] theorem State.accept_out (rest : List PortInput) : (s.accept rest).out = s.out := rfl
@[simp] theorem State.accept_inputs (rest : List PortInput) : (s.accept rest).inputs = rest := rfl
@[simp] theorem State.accept_evtPort (rest : List PortInput) : (s.accept rest).evtPort = [] := rfl
@[simp] theorem State.accept_evtTaken (rest : List PortInput) :
    (s.accept rest).evtTaken = s.evtTaken ++ s.evtPort := rfl
@[simp] theorem State.accept_rspPort (rest : List PortInput) : (s.accept rest).rspPort = s.rspPort := rfl
@[simp] theorem State.accept_rspTaken (rest : List PortInput) : (s.accept rest).rspTaken = s.rspTaken := rfl
@[simp] theorem State.accept_cfg (rest : List PortInput) : (s.accept rest).cfg = s.cfg := rfl

/-! ### present -/

@[simp] theorem State.present_acc (w : Cmd) : (s.present w).acc = s.acc := rfl
@[simp] theorem State.present_buf (w : Cmd) : (s.present w).buf = s.buf := rfl
@[simp] theorem State.present_msgs (w : Cmd) : (s.present w).msgs = s.msgs := rfl
@[simp] theorem State.present_crcerr (w : Cmd) : (s.present w).crcerr = s.crcerr := rfl
@[simp] theorem State.present_ovf (w : Cmd) : (s.present w).ovf = s.ovf := rfl
@[simp] theorem State.present_ill (w : Cmd) : (s.present w).ill = s.ill := rfl
@[simp] theorem State.present_lastv (w : Cmd) : (s.present w).lastv = s.lastv := rfl
@[simp] theorem State.present_lasthdr (w : Cmd) : (s.present w).lasthdr = s.lasthdr := rfl
@[simp] theorem State.present_lastrx (w : Cmd) : (s.present w).lastrx = s.lastrx := rfl
@[simp] theorem State.present_lastcalc (w : Cmd) : (s.present w).lastcalc = s.lastcalc := rfl
@[simp] theorem State.present_out (w : Cmd) : (s.present w).out = s.out := rfl
@[simp] theorem State.present_inputs (w : Cmd) : (s.present w).inputs = .command w :: s.inputs := rfl
@[simp] theorem State.present_evtPort (w : Cmd) : (s.present w).evtPort = s.evtPort := rfl
@[simp] theorem State.present_evtTaken (w : Cmd) : (s.present w).evtTaken = s.evtTaken := rfl
@[simp] theorem State.present_rspPort (w : Cmd) : (s.present w).rspPort = s.rspPort := rfl
@[simp] theorem State.present_rspTaken (w : Cmd) : (s.present w).rspTaken = s.rspTaken := rfl
@[simp] theorem State.present_cfg (w : Cmd) : (s.present w).cfg = s.cfg := rfl

/-! ### resetWith -/

@[simp] theorem State.resetWith_acc (c : Config) : (State.resetWith c).acc = 0#24 := rfl
@[simp] theorem State.resetWith_buf (c : Config) : (State.resetWith c).buf = [] := rfl
@[simp] theorem State.resetWith_msgs (c : Config) : (State.resetWith c).msgs = 0 := rfl
@[simp] theorem State.resetWith_crcerr (c : Config) : (State.resetWith c).crcerr = 0 := rfl
@[simp] theorem State.resetWith_ovf (c : Config) : (State.resetWith c).ovf = false := rfl
@[simp] theorem State.resetWith_ill (c : Config) : (State.resetWith c).ill = false := rfl
@[simp] theorem State.resetWith_lastv (c : Config) : (State.resetWith c).lastv = false := rfl
@[simp] theorem State.resetWith_lasthdr (c : Config) : (State.resetWith c).lasthdr = 0#24 := rfl
@[simp] theorem State.resetWith_lastrx (c : Config) : (State.resetWith c).lastrx = 0#24 := rfl
@[simp] theorem State.resetWith_lastcalc (c : Config) : (State.resetWith c).lastcalc = 0#24 := rfl
@[simp] theorem State.resetWith_out (c : Config) : (State.resetWith c).out = [] := rfl
@[simp] theorem State.resetWith_inputs (c : Config) : (State.resetWith c).inputs = [] := rfl
@[simp] theorem State.resetWith_evtPort (c : Config) : (State.resetWith c).evtPort = [] := rfl
@[simp] theorem State.resetWith_evtTaken (c : Config) : (State.resetWith c).evtTaken = [] := rfl
@[simp] theorem State.resetWith_rspPort (c : Config) : (State.resetWith c).rspPort = [] := rfl
@[simp] theorem State.resetWith_rspTaken (c : Config) : (State.resetWith c).rspTaken = [] := rfl
@[simp] theorem State.resetWith_cfg (c : Config) : (State.resetWith c).cfg = c := rfl

end Sys2Proof.Machine
end

