-- ==== Sys2Proof/Laws/Memory.lean ====
section
/-! SUPPORT. The receive buffer's memory: its bytes, its canonical form, the read of one byte, and that every memory
operation leaves the canonical form. -/

namespace Sys2Proof.Machine

/-! ### Cells and bytes -/

@[simp] theorem cellsFrom_nil (a : Nat) : cellsFrom a [] = [] := rfl

@[simp] theorem cellsFrom_cons (a : Nat) (b : Byte) (bs : List Byte) :
    cellsFrom a (b :: bs) = (a, b) :: cellsFrom (a + 1) bs := rfl

theorem cellsFrom_append (a : Nat) (bs cs : List Byte) :
    cellsFrom a (bs ++ cs) = cellsFrom a bs ++ cellsFrom (a + bs.length) cs := by
  induction bs generalizing a with
  | nil => simp
  | cons b bs ih => simp [ih, Nat.add_assoc, Nat.add_comm 1]

@[simp] theorem cellsFrom_length (a : Nat) (bs : List Byte) : (cellsFrom a bs).length = bs.length := by
  induction bs generalizing a with
  | nil => rfl
  | cons b bs ih => simp [ih]

@[simp] theorem cellsFrom_map_snd (a : Nat) (bs : List Byte) : (cellsFrom a bs).map Prod.snd = bs := by
  induction bs generalizing a with
  | nil => rfl
  | cons b bs ih => simp [ih]

@[simp] theorem Memory.ofBytes_nil : Memory.ofBytes [] = [] := rfl

@[simp] theorem Memory.bytes_nil : Memory.bytes [] = [] := rfl

@[simp] theorem Memory.bytes_ofBytes (bs : List Byte) : (Memory.ofBytes bs).bytes = bs :=
  cellsFrom_map_snd 0 bs

@[simp] theorem Memory.ofBytes_length (bs : List Byte) : (Memory.ofBytes bs).length = bs.length :=
  cellsFrom_length 0 bs

theorem Memory.ofBytes_append_one (bs : List Byte) (b : Byte) :
    Memory.ofBytes (bs ++ [b]) = Memory.ofBytes bs ++ [(bs.length, b)] := by
  simp [Memory.ofBytes, cellsFrom_append]

/-- Every listed offset is at least the first one. -/
theorem le_of_mem_cellsFrom {a : Nat} {bs : List Byte} {c : Host.Cell} (h : c ∈ cellsFrom a bs) : a ≤ c.1 := by
  induction bs generalizing a with
  | nil => simp at h
  | cons b bs ih =>
    rcases List.mem_cons.1 h with rfl | h
    · exact Nat.le_refl _
    · exact Nat.le_of_succ_le (ih h)

/-! ### The canonical form -/

theorem Memory.wf_iff (m : Memory) : m.wf = true ↔ m = Memory.ofBytes m.bytes := by
  simp [Memory.wf]

@[simp] theorem Memory.ofBytes_wf (bs : List Byte) : (Memory.ofBytes bs).wf = true := by
  simp [Memory.wf_iff]

@[simp] theorem Memory.nil_wf : Memory.wf [] = true := rfl

theorem cellsFrom_rising (a : Nat) (bs : List Byte) :
    (cellsFrom a bs).Pairwise (fun c d => c.1 < d.1) := by
  induction bs generalizing a with
  | nil => exact List.Pairwise.nil
  | cons b bs ih =>
    refine List.Pairwise.cons (fun c hc => ?_) (ih (a + 1))
    exact Nat.lt_of_succ_le (le_of_mem_cellsFrom hc)

/-- In a canonical memory the offsets are strictly rising. -/
theorem Memory.rising_of_wf {m : Memory} (h : m.wf = true) : m.Pairwise (fun c d => c.1 < d.1) := by
  rw [(Memory.wf_iff m).1 h]
  exact cellsFrom_rising 0 _

theorem lookup_cellsFrom (a k : Nat) (bs : List Byte) : List.lookup (a + k) (cellsFrom a bs) = bs[k]? := by
  induction bs generalizing a k with
  | nil => simp
  | cons b bs ih =>
    cases k with
    | zero => simp
    | succ k =>
      have h := ih (a + 1) k
      rw [show a + 1 + k = a + (k + 1) by omega] at h
      have hne : (a + (k + 1) == a) = false := by simp
      simp [List.lookup, hne, h]

/-- Reading a canonical memory by offset is reading the valid bytes by position. -/
theorem Memory.lookup_of_wf {m : Memory} (h : m.wf = true) (a : Nat) : m.lookup a = m.bytes[a]? := by
  have := lookup_cellsFrom 0 a m.bytes
  rw [Nat.zero_add] at this
  rw [← this]
  show List.lookup a m = List.lookup a (Memory.ofBytes m.bytes)
  rw [← (Memory.wf_iff m).1 h]

/-! ### The operations on the state's buffer -/

theorem State.len_eq_bytes_length (s : State) : s.len = s.bytes.length := by
  simp [State.len, State.bytes, Memory.bytes]

@[simp] theorem State.bytes_length (s : State) : s.bytes.length = s.len := (s.len_eq_bytes_length).symm

@[simp] theorem State.setBytes_bytes (s : State) (bs : List Byte) : (s.setBytes bs).bytes = bs := by
  simp [State.bytes]

@[simp] theorem State.setBytes_len (s : State) (bs : List Byte) : (s.setBytes bs).len = bs.length := by
  simp [State.len]

@[simp] theorem State.setBytes_setBytes (s : State) (bs cs : List Byte) :
    (s.setBytes bs).setBytes cs = s.setBytes cs := rfl

theorem State.setBytes_self {s : State} (h : s.buf.wf = true) : s.setBytes s.bytes = s := by
  have hb : Memory.ofBytes s.bytes = s.buf := ((Memory.wf_iff s.buf).1 h).symm
  simp [State.setBytes, hb]

@[simp] theorem State.append_bytes (s : State) (b : Byte) : (s.append b).bytes = s.bytes ++ [b] := by
  simp [State.append]

@[simp] theorem State.append_len (s : State) (b : Byte) : (s.append b).len = s.len + 1 := by
  simp [State.append]

@[simp] theorem State.dropFront_bytes (s : State) (k : Nat) : (s.dropFront k).bytes = s.bytes.drop k := by
  simp [State.dropFront]

@[simp] theorem State.dropFront_len (s : State) (k : Nat) : (s.dropFront k).len = s.len - k := by
  simp [State.dropFront]

@[simp] theorem State.emptyBuffer_bytes (s : State) : s.emptyBuffer.bytes = [] := by
  simp [State.emptyBuffer]

@[simp] theorem State.emptyBuffer_len (s : State) : s.emptyBuffer.len = 0 := by
  simp [State.emptyBuffer]

/-- A slice inside the buffer has all its bytes (20_memory.md R66). -/
theorem State.slice_length {s : State} {i n : Nat} (h : i + n ≤ s.len) : (s.slice i n).length = n := by
  rw [State.slice, List.length_take, List.length_drop, State.bytes_length]
  omega

/-- A slice inside the buffer does not see bytes that stand above `LEN` (20_memory.md R66). -/
theorem State.slice_append {s : State} {i n : Nat} (h : i + n ≤ s.len) (xs : List Byte) :
    (s.setBytes (s.bytes ++ xs)).slice i n = s.slice i n := by
  have hb := s.bytes_length
  rw [State.slice, State.slice, State.setBytes_bytes, List.drop_append_of_le_length (by omega),
    List.take_append_of_le_length (by rw [List.length_drop]; omega)]

/-- A legal `MemRead` does not see bytes that stand above `LEN` (20_memory.md R66). -/
theorem State.memRead_append {s : State} {i n : Nat} (h : i + n ≤ s.len) (xs : List Byte) :
    (s.setBytes (s.bytes ++ xs)).memRead i n = s.memRead i n := by
  rw [State.memRead, State.memRead, State.slice_append h]

/-- Any other update that leaves `buf` alone leaves the bytes alone. -/
theorem State.bytes_congr {s t : State} (h : s.buf = t.buf) : s.bytes = t.bytes := by
  simp [State.bytes, h]

@[simp] theorem State.emit_bytes (s : State) (e : Event) : (s.emit e).bytes = s.bytes := rfl
@[simp] theorem State.emit_len (s : State) (e : Event) : (s.emit e).len = s.len := rfl
@[simp] theorem State.respond_bytes (s : State) (v : Word32) : (s.respond v).bytes = s.bytes := rfl
@[simp] theorem State.respond_len (s : State) (v : Word32) : (s.respond v).len = s.len := rfl
@[simp] theorem State.countMsg_bytes (s : State) : s.countMsg.bytes = s.bytes := rfl
@[simp] theorem State.countCrcErr_bytes (s : State) : s.countCrcErr.bytes = s.bytes := rfl
@[simp] theorem State.writeLast_bytes (s : State) (len : Len10) (type : Type12) (tv ok : Bool) (rx comp : Crc24) :
    (s.writeLast len type tv ok rx comp).bytes = s.bytes := rfl
@[simp] theorem State.accept_bytes (s : State) (rest : List PortInput) : (s.accept rest).bytes = s.bytes := rfl
@[simp] theorem State.accept_len (s : State) (rest : List PortInput) : (s.accept rest).len = s.len := rfl
@[simp] theorem State.present_bytes (s : State) (w : Cmd) : (s.present w).bytes = s.bytes := rfl
@[simp] theorem State.clear_bytes (s : State) : s.clear.bytes = [] := rfl
@[simp] theorem State.clear_len (s : State) : s.clear.len = 0 := rfl

/-! ### Every memory operation leaves the canonical form -/

@[simp] theorem State.setBytes_wf (s : State) (bs : List Byte) : (s.setBytes bs).buf.wf = true := by simp
@[simp] theorem State.append_wf (s : State) (b : Byte) : (s.append b).buf.wf = true := by simp
@[simp] theorem State.dropFront_wf (s : State) (k : Nat) : (s.dropFront k).buf.wf = true := by simp
@[simp] theorem State.emptyBuffer_wf (s : State) : s.emptyBuffer.buf.wf = true := by simp
@[simp] theorem State.clear_wf (s : State) : s.clear.buf.wf = true := by simp

/-- The memory right after reset is canonical. -/
theorem State.reset_wf : State.reset.buf.wf = true := rfl

/-- In a canonical memory an append adds one cell at `LEN` and keeps the others. -/
theorem State.append_buf_of_wf {s : State} (h : s.buf.wf = true) (b : Byte) :
    (s.append b).buf = s.buf ++ [(s.len, b)] := by
  rw [State.append_buf, Memory.ofBytes_append_one, State.bytes_length]
  congr 1
  exact ((Memory.wf_iff s.buf).1 h).symm

end Sys2Proof.Machine
end

