-- ==== Sys2Proof/Machine/Assembler.lean ====
section
/-! DEFINITION. The textual form of a command stream (30_encoding.md R101) and the pseudo-instructions (R102,
42_system.md R183 to R185): one line of text to a statement, a statement to command words. -/

namespace Sys2Proof.Machine

/-- `CRC.RD` is `RDREG CRCACC` (R183). -/
def expandCrcRd : List Instr := [.rdreg (regNumber .crcacc)]

/-- `PUSHS b0 ... bk` is one PUSH per byte, in order (R184). -/
def expandPushs (bs : List Byte) : List Instr := bs.map .push

/-- `CRC24Q b0 ... bk` is CRC.CLR, one CRC.UPD per byte, `RDREG CRCACC` (R185). -/
def expandCrc24q (bs : List Byte) : List Instr := .crcClr :: (bs.map .crcUpd ++ expandCrcRd)

/-- The register number an operand of RDREG stands for (R101). -/
def asmRegNum : AsmReg → RegNum
  | .number n => BitVec.ofNat 8 n
  | .named r => regNumber r

/-- The bytes a list of operands stands for. -/
def asmBytes (ns : List Nat) : List Byte := ns.map (BitVec.ofNat 8)

/-- The command words of a statement whose operands are in range (R93, R101, R102). -/
def asmWords : AsmStmt → List Cmd
  | .nop => [encode .nop]
  | .push b => [encode (.push (BitVec.ofNat 8 b))]
  | .flush => [encode .flush]
  | .crcClr => [encode .crcClr]
  | .crcUpd b => [encode (.crcUpd (BitVec.ofNat 8 b))]
  | .rdreg r => [encode (.rdreg (asmRegNum r))]
  | .srst => [encode .srst]
  | .word w => [BitVec.ofNat 12 w]
  | .crcRd => expandCrcRd.map encode
  | .pushs bs => (expandPushs (asmBytes bs)).map encode
  | .crc24q bs => (expandCrc24q (asmBytes bs)).map encode

/-- Assemble one statement; none if an operand is out of range (R101). -/
def assemble (t : AsmStmt) : Option (List Cmd) :=
  if t.WellFormed then some (asmWords t) else none

/-! ### The text of a line -/

/-- The value of a digit in base 10 or 16. -/
def digitValue (base : Nat) (c : Char) : Option Nat :=
  let n := c.toNat
  let v :=
    if '0'.toNat ≤ n ∧ n ≤ '9'.toNat then some (n - '0'.toNat)
    else if 'A'.toNat ≤ n ∧ n ≤ 'F'.toNat then some (n - 'A'.toNat + 10)
    else if 'a'.toNat ≤ n ∧ n ≤ 'f'.toNat then some (n - 'a'.toNat + 10)
    else none
  match v with
  | some d => if d < base then some d else none
  | none => none

/-- The digits after the first ones, whose value is `acc`. -/
def digitsFrom (base : Nat) : Nat → List Char → Option Nat
  | acc, [] => some acc
  | acc, c :: cs =>
    match digitValue base c with
    | some d => digitsFrom base (acc * base + d) cs
    | none => none

/-- A number is decimal, or hexadecimal after `0x` (R101). -/
def parseNumber : List Char → Option Nat
  | '0' :: 'x' :: c :: cs => digitsFrom 16 0 (c :: cs)
  | c :: cs => digitsFrom 10 0 (c :: cs)
  | [] => none

/-- Operands that are all numbers. -/
def parseNumbers : List (List Char) → Option (List Nat)
  | [] => some []
  | t :: ts =>
    match parseNumber t, parseNumbers ts with
    | some n, some ns => some (n :: ns)
    | _, _ => none

/-- The register names of R101. -/
def regNames : List (List Char × RegName) :=
  [("STATUS".toList, .status), ("BUFLEN".toList, .buflen), ("MSGS".toList, .msgs), ("CRCERR".toList, .crcerr),
   ("LASTHDR".toList, .lasthdr), ("LASTRX".toList, .lastrx), ("LASTCALC".toList, .lastcalc),
   ("CRCACC".toList, .crcacc), ("POLY".toList, .poly), ("BUFCAP".toList, .bufcap)]

/-- The operand of RDREG: one of the names, else a number (R101). -/
def parseReg (t : List Char) : Option AsmReg :=
  match regNames.lookup t with
  | some r => some (.named r)
  | none =>
    match parseNumber t with
    | some n => some (.number n)
    | none => none

/-- One operand that is a number, for PUSH, CRC.UPD and `.word`. -/
def withNumber (f : Nat → AsmStmt) : List (List Char) → Option AsmStmt
  | [t] => (parseNumber t).map f
  | _ => none

/-- Any number of operands, for PUSHS and CRC24Q (R102). -/
def withNumbers (f : List Nat → AsmStmt) (ts : List (List Char)) : Option AsmStmt := (parseNumbers ts).map f

/-- No operand. -/
def withNone (t : AsmStmt) : List (List Char) → Option AsmStmt
  | [] => some t
  | _ => none

/-- A mnemonic and its operands (R101, R102). -/
def parseStmt (mnemonic : List Char) (ops : List (List Char)) : Option AsmStmt :=
  if mnemonic = "NOP".toList then withNone .nop ops
  else if mnemonic = "PUSH".toList then withNumber .push ops
  else if mnemonic = "FLUSH".toList then withNone .flush ops
  else if mnemonic = "CRC.CLR".toList then withNone .crcClr ops
  else if mnemonic = "CRC.UPD".toList then withNumber .crcUpd ops
  else if mnemonic = "RDREG".toList then
    match ops with
    | [t] => (parseReg t).map .rdreg
    | _ => none
  else if mnemonic = "SRST".toList then withNone .srst ops
  else if mnemonic = ".word".toList then withNumber .word ops
  else if mnemonic = "CRC.RD".toList then withNone .crcRd ops
  else if mnemonic = "PUSHS".toList then withNumbers .pushs ops
  else if mnemonic = "CRC24Q".toList then withNumbers .crc24q ops
  else none

/-- A finished token, if it has a character. -/
def closeToken (cur : List Char) : List (List Char) := if cur.isEmpty then [] else [cur]

/-- The tokens of a line, separated by spaces and tabs (log entry 11); `cur` is the token being read. -/
def tokensFrom : List Char → List Char → List (List Char)
  | cur, [] => closeToken cur
  | cur, c :: cs =>
    if c = ' ' ∨ c = '\t' then closeToken cur ++ tokensFrom [] cs else tokensFrom (cur ++ [c]) cs

/-- The words of one line: a comment runs from `;` to the end of the line (R101), a line with nothing before it
gives no word, and none is a line that is no statement or whose operand is out of range. -/
def assembleLine (line : List Char) : Option (List Cmd) :=
  match tokensFrom [] (line.takeWhile (· != ';')) with
  | [] => some []
  | mnemonic :: ops =>
    match parseStmt mnemonic ops with
    | some t => assemble t
    | none => none

end Sys2Proof.Machine
end

