-- ==== Sys2Proof/Safety.lean ====
section
/-! DEFINITION. What claims speak about: the invariant of the block (41_framer.md R155 and the ranges of
10_state.md R20), the premise of a clean run (60_exceptions.md R209), runs of commands (70_reset_and_hazards.md
R258), the source's `process(data)` (42_system.md R184) and frames (20_memory.md R63). -/

namespace Sys2Proof.Safety

open Sys2Proof.Machine

/-! ### The invariant -/

/-- The three cases of R155: the buffer is empty, or it holds the beginning of exactly one frame, starting at offset
0, not yet complete. -/
def FramerInv (s : State) : Prop :=
  s.len = 0 ∨
  (s.byteAt 0 = some Config.preamble ∧ 1 ≤ s.len ∧ s.len ≤ 2) ∨
  (∃ b1 b2 rest, s.bytes = Config.preamble :: b1 :: b2 :: rest ∧
    s.len < (((b1 &&& 0x03#8).toNat <<< 8) ||| b2.toNat) + 6)

/-- The ranges of R20 and R75: `LEN` at most `BUF_CAP`, the counters below `2^CNT_W`. -/
def RangeInv (s : State) : Prop :=
  s.len ≤ s.cfg.bufCap ∧ s.msgs < 2 ^ s.cfg.cntW ∧ s.crcerr < 2 ^ s.cfg.cntW

/-- What R27, R29 and R30 say of the last-frame registers: reset values while `LASTV` is 0; `CRCOK` exactly when the
two CRCs agree, once a frame was checked; a type only with `CRCOK` and at least two payload bytes, else 0. -/
def LastFrameInv (s : State) : Prop :=
  (s.lastv = false → s.lasthdr = 0#24 ∧ s.lastrx = 0#24 ∧ s.lastcalc = 0#24) ∧
  (s.lastv = true → (hdrCrcOk s.lasthdr = true ↔ s.lastrx = s.lastcalc)) ∧
  (s.lastv = true →
    (hdrTypeValid s.lasthdr = true ↔ hdrCrcOk s.lasthdr = true ∧ 2 ≤ (hdrLen10 s.lasthdr).toNat)) ∧
  (hdrTypeValid s.lasthdr = false → hdrType s.lasthdr = 0#12)

/-- The invariant of the block: the configuration is legal (00_scope.md R6), the buffer's memory is canonical, and
the three groups above. -/
def Inv (s : State) : Prop :=
  s.cfg.WellFormed = true ∧ s.buf.wf = true ∧ FramerInv s ∧ RangeInv s ∧ LastFrameInv s

/-- The ports carry the trace in order and lose nothing (20_memory.md R69, R74): what was taken, then what waits, is
what the trace's items send. A reset pin that finds something waiting breaks it (70_reset_and_hazards.md R250). -/
def PortsCarryTrace (s : State) : Prop :=
  s.evtTaken ++ s.evtPort = s.out.flatMap OutItem.transfers ∧
  s.rspTaken ++ s.rspPort = s.out.flatMap OutItem.responses

/-- Every element holds the value 10_state.md R38 gives it; `BUF` holds none. -/
def AtResetValues (s : State) : Prop :=
  s.acc = 0x000000#24 ∧ s.len = 0 ∧ (∀ a, s.byteAt a = none) ∧ s.msgs = 0 ∧ s.crcerr = 0 ∧ s.ovf = false ∧
  s.ill = false ∧ s.lastv = false ∧ s.lasthdr = 0x000000#24 ∧ s.lastrx = 0x000000#24 ∧ s.lastcalc = 0x000000#24

/-- The premise "no overflow and no illegal command since reset" (60_exceptions.md R209). -/
def Clean (s : State) : Prop := s.ovf = false ∧ s.ill = false

/-- How many event records of a trace satisfy `p` (60_exceptions.md R211 counts DECODED and CRCFAIL events). -/
def countEvents (p : Event → Bool) : List OutItem → Nat
  | [] => 0
  | .rsp _ :: rest => countEvents p rest
  | .evt e :: rest => (if p e then 1 else 0) + countEvents p rest

/-- Is it a DECODED event? -/
def isDecoded : Event → Bool
  | .decoded .. => true
  | .crcFail .. => false
  | .overflow .. => false
  | .illegal .. => false

/-- Is it an OVERFLOW event? -/
def isOverflow : Event → Bool
  | .decoded .. => false
  | .crcFail .. => false
  | .overflow .. => true
  | .illegal .. => false

/-- Is it a CRCFAIL event? -/
def isCrcFail : Event → Bool
  | .decoded .. => false
  | .crcFail .. => true
  | .overflow .. => false
  | .illegal .. => false

/-- The condition of the two `return`s of the extraction loop, "stop and wait for more data" (41_framer.md R145,
R147). -/
def Waits (s : State) : Prop := s.len < 6 ∨ s.len < frameLength s.payloadLength

/-! ### Runs -/

/-- Commands executed one after another (20_memory.md R68), stopping at the first stop. -/
def execAll : List Instr → State → Host.Outcome State Fault Refusal
  | [], s => .next s
  | i :: is, s =>
    match exec i s with
    | .next s' => execAll is s'
    | .fault r => .fault r
    | .refused r => .refused r

/-- A run (R258): from `s`, the host presents these words one after another and nothing else happens. -/
def runWords (ws : List Cmd) (s : State) : Host.Outcome State Fault Refusal :=
  Sys2Proof.core.run ws.length { s with inputs := ws.map PortInput.command }

/-- The source's `process(data)`: append all of `data`, then run the extraction loop (42_system.md R184, 41_framer.md
R157), with no cap, as the source's growable buffer has none. -/
def process (data : List Byte) (s : State) : State := (s.setBytes (s.bytes ++ data)).extract

/-- The next thing that happens to `s` is that it is offered a word that decodes to `d`. -/
def Offered (s : State) (d : Except Reserved Instr) : Prop :=
  ∃ w rest, s.inputs = .command w :: rest ∧ decode w = d

/-- The next thing that happens to `s` is a clock edge with `rst` at 1. -/
def ResetNext (s : State) : Prop := ∃ rest, s.inputs = .reset :: rest

/-- The bytes that the CRC.UPD words of a command stream carry, in order (40_crc_engine.md R131). -/
def updBytes : List Cmd → List Byte
  | [] => []
  | w :: ws =>
    match decode w with
    | .ok (.crcUpd b) => b :: updBytes ws
    | _ => updBytes ws

/-! ### The CRC and frames -/

/-- The body of R120's loop on natural numbers, where a shift is without loss (00_scope.md R8). -/
def crcLoopStep (t : Nat) : Nat := if (t <<< 1).testBit 24 then (t <<< 1) ^^^ 0x1864CFB else t <<< 1

/-- The three bytes of a 24-bit value, most significant first (20_memory.md R62). -/
def crcTrailer (c : Crc24) : List Byte :=
  [c.extractLsb' 16 8, c.extractLsb' 8 8, c.extractLsb' 0 8]

/-- The bytes a frame's CRC covers: preamble, header bytes with the 6 reserved bits `res`, payload (R63). -/
def frameBody (res : BitVec 6) (len : Len10) (payload : List Byte) : List Byte :=
  Config.preamble :: (res ++ len.extractLsb' 8 2) :: len.extractLsb' 0 8 :: payload

/-- A frame with trailer `rx` (R63); it is well-formed when `rx` is the CRC of its body and the payload has `len`
bytes. -/
def frame (res : BitVec 6) (len : Len10) (payload : List Byte) (rx : Crc24) : List Byte :=
  frameBody res len payload ++ crcTrailer rx

/-- The message type of a payload and whether it has one: the first 12 bits of two or more bytes, else `0x000` and no
type (41_framer.md R150, R151). -/
def payloadType : List Byte → Type12 × Bool
  | p0 :: p1 :: _ => (p0 ++ p1.extractLsb' 4 4, true)
  | [_] => (0x000#12, false)
  | [] => (0x000#12, false)

end Sys2Proof.Safety
end

