-- ==== Sys2Proof/Laws/Framer.lean ====
section
/-! SUPPORT. What the framer's operations can do, said once: the preamble search, one pass of the extraction loop, the
induction over its passes, and what neither PUSH's loop nor a candidate's check touches. -/

namespace Sys2Proof.Machine

open Sys2Proof.Safety

/-! ### Step 1 -/

@[simp] theorem State.step1_bytes (s : State) :
    s.step1.bytes = s.bytes.dropWhile (· != Config.preamble) := by
  simp [State.step1]

@[simp] theorem State.step1_wf (s : State) : s.step1.buf.wf = true := by simp [State.step1]

theorem State.step1_of_nil {s : State} (h : s.bytes = []) : s.step1 = s.emptyBuffer := by
  simp [State.step1, State.emptyBuffer, h]

/-- A buffer that begins with the preamble loses nothing. -/
theorem State.step1_of_preamble {s : State} {rest : List Byte} (h : s.bytes = Config.preamble :: rest) :
    s.step1 = s.setBytes (Config.preamble :: rest) := by
  simp [State.step1, h]

/-- After step 1 the buffer is empty or begins with the preamble (R144). -/
theorem State.step1_cases (s : State) :
    s.step1.bytes = [] ∨ ∃ rest, s.step1.bytes = Config.preamble :: rest := by
  rw [State.step1_bytes]
  induction s.bytes with
  | nil => exact .inl rfl
  | cons b bs ih =>
    by_cases hb : b = Config.preamble
    · exact .inr ⟨bs, by simp [hb]⟩
    · have : (b != Config.preamble) = true := by simpa using hb
      rw [List.dropWhile_cons_of_pos (by simpa using hb)]
      exact ih

/-! ### One pass of the loop -/

@[simp] theorem State.extractLoop_zero (s : State) : State.extractLoop 0 s = s := rfl

/-- A pass that waits for more data returns what step 1 left (R145, R147). -/
theorem State.extractLoop_waits {s : State} (k : Nat) (h : Waits s.step1) :
    State.extractLoop (k + 1) s = s.step1 := by
  rcases h with h | h
  · simp [State.extractLoop, Config.minAvail, h]
  · by_cases h6 : s.step1.len < 6
    · simp [State.extractLoop, Config.minAvail, h6]
    · simp [State.extractLoop, Config.minAvail, h6, h]

/-- A pass that does not wait checks the candidate, removes it and goes on (R143, R153). -/
theorem State.extractLoop_checks {s : State} (k : Nat) (h : ¬ Waits s.step1) :
    State.extractLoop (k + 1) s =
      State.extractLoop k
        ((s.step1.checkCandidate s.step1.payloadLength).dropFront (frameLength s.step1.payloadLength)) := by
  obtain ⟨h6, hn⟩ := not_or.1 h
  simp [State.extractLoop, Config.minAvail, h6, hn]

/-- The induction over the passes: what holds of a state, and is kept by step 1 and by the check and removal of a
candidate that is all there, holds of the loop's result. -/
theorem State.extractLoop_keeps {P : State → Prop} (h1 : ∀ s, P s → P s.step1)
    (hc : ∀ s, P s → ¬ Waits s →
      P ((s.checkCandidate s.payloadLength).dropFront (frameLength s.payloadLength))) :
    ∀ (k : Nat) (s : State), P s → P (State.extractLoop k s) := by
  intro k
  induction k with
  | zero => intro s hs; exact hs
  | succ k ih =>
    intro s hs
    by_cases hw : Waits s.step1
    · rw [State.extractLoop_waits k hw]; exact h1 s hs
    · rw [State.extractLoop_checks k hw]; exact ih _ (hc _ (h1 s hs) hw)

/-- The same for `Extract` (R143). -/
theorem State.extract_keeps {P : State → Prop} (h1 : ∀ s, P s → P s.step1)
    (hc : ∀ s, P s → ¬ Waits s →
      P ((s.checkCandidate s.payloadLength).dropFront (frameLength s.payloadLength)))
    {s : State} (hs : P s) : P s.extract :=
  State.extractLoop_keeps h1 hc _ s hs

/-! ### The check of one candidate -/

/-- Step 6 as one update after another (R149). -/
theorem State.step6_eq (s : State) (len : Len10) (rx comp : Crc24) :
    s.step6 len rx comp =
      ((s.writeLast len (s.typeOf len).1 (s.typeOf len).2 true rx comp).countMsg).emit
        (.decoded len (s.typeOf len).1 (s.typeOf len).2 rx (s.slice Config.hdrBytes len.toNat)) := by
  simp only [State.step6]

/-- Step 7 as one update after another (R152). -/
theorem State.step7_eq (s : State) (len : Len10) (n : Nat) (rx comp : Crc24) :
    s.step7 len n rx comp =
      ((s.writeLast len 0#12 false false rx comp).countCrcErr).emit
        (.crcFail len rx comp (s.slice 0 (min n s.cfg.dumpMax))) := rfl

/-- The check is step 6 when the two CRCs agree, else step 7 (R148). -/
theorem State.checkCandidate_cases (s : State) (len : Len10) :
    (s.calcCrc (frameLength len) = s.rxCrc (frameLength len) ∧
      s.checkCandidate len = s.step6 len (s.rxCrc (frameLength len)) (s.calcCrc (frameLength len))) ∨
    (s.calcCrc (frameLength len) ≠ s.rxCrc (frameLength len) ∧
      s.checkCandidate len =
        s.step7 len (frameLength len) (s.rxCrc (frameLength len)) (s.calcCrc (frameLength len))) := by
  by_cases h : s.calcCrc (frameLength len) = s.rxCrc (frameLength len)
  · exact .inl ⟨h, by simp [State.checkCandidate, h]⟩
  · exact .inr ⟨h, by simp [State.checkCandidate, h]⟩

/-- A check appends one event, DECODED or CRCFAIL, to the trace and sends it to the event port (R149, R152). -/
theorem State.checkCandidate_emits (s : State) (len : Len10) :
    ∃ e, (isDecoded e = true ∨ isCrcFail e = true) ∧
      (s.checkCandidate len).out = s.out ++ [.evt e] ∧
      (s.checkCandidate len).evtPort = s.evtPort ++ e.transfers := by
  rcases s.checkCandidate_cases len with ⟨_, h⟩ | ⟨_, h⟩ <;> rw [h]
  · rw [State.step6_eq]; exact ⟨_, .inl rfl, State.emit_out _ _, State.emit_evtPort _ _⟩
  · rw [State.step7_eq]; exact ⟨_, .inr rfl, State.emit_out _ _, State.emit_evtPort _ _⟩

/-! ### What step 1, a candidate's check and the loop leave alone -/

@[simp] theorem State.step1_acc (s : State) : s.step1.acc = s.acc := rfl
@[simp] theorem State.step1_ovf (s : State) : s.step1.ovf = s.ovf := rfl
@[simp] theorem State.step1_ill (s : State) : s.step1.ill = s.ill := rfl
@[simp] theorem State.step1_inputs (s : State) : s.step1.inputs = s.inputs := rfl
@[simp] theorem State.step1_evtTaken (s : State) : s.step1.evtTaken = s.evtTaken := rfl
@[simp] theorem State.step1_rspPort (s : State) : s.step1.rspPort = s.rspPort := rfl
@[simp] theorem State.step1_rspTaken (s : State) : s.step1.rspTaken = s.rspTaken := rfl
@[simp] theorem State.step1_cfg (s : State) : s.step1.cfg = s.cfg := rfl
@[simp] theorem State.step1_msgs (s : State) : s.step1.msgs = s.msgs := rfl
@[simp] theorem State.step1_crcerr (s : State) : s.step1.crcerr = s.crcerr := rfl
@[simp] theorem State.step1_lastv (s : State) : s.step1.lastv = s.lastv := rfl
@[simp] theorem State.step1_lasthdr (s : State) : s.step1.lasthdr = s.lasthdr := rfl
@[simp] theorem State.step1_lastrx (s : State) : s.step1.lastrx = s.lastrx := rfl
@[simp] theorem State.step1_lastcalc (s : State) : s.step1.lastcalc = s.lastcalc := rfl
@[simp] theorem State.step1_out (s : State) : s.step1.out = s.out := rfl
@[simp] theorem State.step1_evtPort (s : State) : s.step1.evtPort = s.evtPort := rfl

@[simp] theorem State.checkCandidate_acc (s : State) (len : Len10) :
    (s.checkCandidate len).acc = s.acc := by
  rcases s.checkCandidate_cases len with ⟨_, h⟩ | ⟨_, h⟩ <;> simp [h, State.step6_eq, State.step7_eq]

@[simp] theorem State.checkCandidate_ovf (s : State) (len : Len10) :
    (s.checkCandidate len).ovf = s.ovf := by
  rcases s.checkCandidate_cases len with ⟨_, h⟩ | ⟨_, h⟩ <;> simp [h, State.step6_eq, State.step7_eq]

@[simp] theorem State.checkCandidate_ill (s : State) (len : Len10) :
    (s.checkCandidate len).ill = s.ill := by
  rcases s.checkCandidate_cases len with ⟨_, h⟩ | ⟨_, h⟩ <;> simp [h, State.step6_eq, State.step7_eq]

@[simp] theorem State.checkCandidate_inputs (s : State) (len : Len10) :
    (s.checkCandidate len).inputs = s.inputs := by
  rcases s.checkCandidate_cases len with ⟨_, h⟩ | ⟨_, h⟩ <;> simp [h, State.step6_eq, State.step7_eq]

@[simp] theorem State.checkCandidate_evtTaken (s : State) (len : Len10) :
    (s.checkCandidate len).evtTaken = s.evtTaken := by
  rcases s.checkCandidate_cases len with ⟨_, h⟩ | ⟨_, h⟩ <;> simp [h, State.step6_eq, State.step7_eq]

@[simp] theorem State.checkCandidate_rspPort (s : State) (len : Len10) :
    (s.checkCandidate len).rspPort = s.rspPort := by
  rcases s.checkCandidate_cases len with ⟨_, h⟩ | ⟨_, h⟩ <;> simp [h, State.step6_eq, State.step7_eq]

@[simp] theorem State.checkCandidate_rspTaken (s : State) (len : Len10) :
    (s.checkCandidate len).rspTaken = s.rspTaken := by
  rcases s.checkCandidate_cases len with ⟨_, h⟩ | ⟨_, h⟩ <;> simp [h, State.step6_eq, State.step7_eq]

@[simp] theorem State.checkCandidate_cfg (s : State) (len : Len10) :
    (s.checkCandidate len).cfg = s.cfg := by
  rcases s.checkCandidate_cases len with ⟨_, h⟩ | ⟨_, h⟩ <;> simp [h, State.step6_eq, State.step7_eq]

@[simp] theorem State.checkCandidate_buf (s : State) (len : Len10) :
    (s.checkCandidate len).buf = s.buf := by
  rcases s.checkCandidate_cases len with ⟨_, h⟩ | ⟨_, h⟩ <;> simp [h, State.step6_eq, State.step7_eq]

@[simp] theorem State.checkCandidate_bytes (s : State) (len : Len10) :
    (s.checkCandidate len).bytes = s.bytes :=
  State.bytes_congr (s.checkCandidate_buf len)

@[simp] theorem State.extract_acc (s : State) : s.extract.acc = s.acc := by
  refine State.extract_keeps (P := fun t => t.acc = s.acc) (s := s) ?_ ?_ rfl
  · intro t h; exact h
  · intro t h _; simpa using h

@[simp] theorem State.extract_ovf (s : State) : s.extract.ovf = s.ovf := by
  refine State.extract_keeps (P := fun t => t.ovf = s.ovf) (s := s) ?_ ?_ rfl
  · intro t h; exact h
  · intro t h _; simpa using h

@[simp] theorem State.extract_ill (s : State) : s.extract.ill = s.ill := by
  refine State.extract_keeps (P := fun t => t.ill = s.ill) (s := s) ?_ ?_ rfl
  · intro t h; exact h
  · intro t h _; simpa using h

@[simp] theorem State.extract_inputs (s : State) : s.extract.inputs = s.inputs := by
  refine State.extract_keeps (P := fun t => t.inputs = s.inputs) (s := s) ?_ ?_ rfl
  · intro t h; exact h
  · intro t h _; simpa using h

@[simp] theorem State.extract_evtTaken (s : State) : s.extract.evtTaken = s.evtTaken := by
  refine State.extract_keeps (P := fun t => t.evtTaken = s.evtTaken) (s := s) ?_ ?_ rfl
  · intro t h; exact h
  · intro t h _; simpa using h

@[simp] theorem State.extract_rspPort (s : State) : s.extract.rspPort = s.rspPort := by
  refine State.extract_keeps (P := fun t => t.rspPort = s.rspPort) (s := s) ?_ ?_ rfl
  · intro t h; exact h
  · intro t h _; simpa using h

@[simp] theorem State.extract_rspTaken (s : State) : s.extract.rspTaken = s.rspTaken := by
  refine State.extract_keeps (P := fun t => t.rspTaken = s.rspTaken) (s := s) ?_ ?_ rfl
  · intro t h; exact h
  · intro t h _; simpa using h

@[simp] theorem State.extract_cfg (s : State) : s.extract.cfg = s.cfg := by
  refine State.extract_keeps (P := fun t => t.cfg = s.cfg) (s := s) ?_ ?_ rfl
  · intro t h; exact h
  · intro t h _; simpa using h

/-- `Extract` leaves the memory canonical. -/
@[simp] theorem State.extractLoop_wf (k : Nat) (s : State) (h : s.buf.wf = true) :
    (State.extractLoop k s).buf.wf = true :=
  State.extractLoop_keeps (P := fun t => t.buf.wf = true) (fun t _ => t.step1_wf)
    (fun _ _ _ => State.dropFront_wf _ _) k s h

/-! ### The overflow check -/

/-- The overflow check raises BufferOverflow exactly when the buffer is full (R141). -/
theorem State.overflowCheck_cases (s : State) :
    (s.len = s.cfg.bufCap ∧ s.overflowCheck = s.raise .bufferOverflow) ∨
    (s.len ≠ s.cfg.bufCap ∧ s.overflowCheck = s) := by
  by_cases h : s.len = s.cfg.bufCap
  · exact .inl ⟨h, by simp [State.overflowCheck, h]⟩
  · exact .inr ⟨h, by simp [State.overflowCheck, h]⟩

/-! ### The meanings' equations -/

theorem exec_push (b : Byte) (s : State) :
    exec (.push b) s = .next ((s.overflowCheck.append b).extract) := rfl

theorem exec_flush (s : State) : exec .flush s = .next s.emptyBuffer := rfl

theorem exec_rdreg (r : RegNum) (s : State) : exec (.rdreg r) s = .next (s.respond (s.readReg r)) := rfl

theorem exec_srst (s : State) : exec .srst s = .next s.clear := rfl

end Sys2Proof.Machine
end

