-- ==== Sys2Proof/Laws/Ops.lean ====
section
/-! SUPPORT. Numbers, bit fields, the fault entry, the decoder on a word given by its two fields, and one step by the
input it takes. -/

namespace Sys2Proof.Machine

/-! ### Numbers -/

theorem zext32_of_lt {v : Nat} (h : v < 2 ^ 32) : zext32 v = BitVec.ofNat 32 v := by
  simp only [zext32, if_pos h]

theorem nextCount_lt (w n : Nat) : nextCount w n < 2 ^ w := Nat.mod_lt _ (Nat.two_pow_pos w)

@[simp] theorem be_nil : be [] = 0 := rfl

/-- `be(s ++ [b]) = (be(s) << 8) | b` (00_scope.md R9). -/
theorem be_append_one (s : List Byte) (b : Byte) : be (s ++ [b]) = (be s <<< 8) ||| b.toNat := by
  simp [be]

theorem crcFrom_append (a : Crc24) (s t : List Byte) : crcFrom a (s ++ t) = crcFrom (crcFrom a s) t := by
  simp [crcFrom]

@[simp] theorem crcFrom_nil (a : Crc24) : crcFrom a [] = a := rfl

theorem crcFrom_cons (a : Crc24) (b : Byte) (s : List Byte) : crcFrom a (b :: s) = crcFrom (crcStep a b) s := rfl

/-! ### The fault entry (60_exceptions.md R207) -/

theorem State.raise_crcMismatch (s : State) (len : Len10) (rx comp : Crc24) (dump : List Byte) :
    s.raise (.crcMismatch len rx comp dump) =
      ((s.writeLast len 0#12 false false rx comp).countCrcErr).emit (.crcFail len rx comp dump) := rfl

theorem State.raise_bufferOverflow (s : State) :
    s.raise .bufferOverflow =
      ({ s.emptyBuffer with ovf := true } : State).emit (.overflow (zext32 s.cfg.bufCap)) := rfl

theorem State.raise_illegalCommand (s : State) (w : Cmd) :
    s.raise (.illegalCommand w) = ({ s with ill := true } : State).emit (.illegal w) := rfl

/-! ### One step, by its input -/

theorem step_idle {s : State} (h : s.inputs = []) : step s = .next s := by
  simp [step, h]

theorem step_of_input {s : State} {i : PortInput} {rest : List PortInput} (h : s.inputs = i :: rest) :
    step s = takeInput s rest i := by
  simp [step, h]

@[simp] theorem takeInput_command (s : State) (rest : List PortInput) (w : Cmd) :
    takeInput s rest (.command w) = runWord w (s.accept rest) := rfl

theorem runWord_ok {w : Cmd} {i : Instr} (h : decode w = .ok i) (s : State) : runWord w s = exec i s := by
  simp [runWord, h]

theorem runWord_error {w : Cmd} {e : Reserved} (h : decode w = .error e) (s : State) :
    runWord w s = .next (s.raise (.illegalCommand w)) := by
  simp [runWord, h, reservedEncoding]

end Sys2Proof.Machine

namespace Sys2Proof

/-! ### Words by their two fields -/

@[simp] theorem Cmd.op_append (op : BitVec 4) (arg : BitVec 8) : Cmd.op (op ++ arg) = op := by
  unfold Cmd.op
  ext i hi
  have h := BitVec.getLsbD_append (x := op) (y := arg) (i := 8 + i)
  rw [BitVec.getElem_extractLsb']
  exact h.trans (by simp [BitVec.getLsbD_eq_getElem hi])

@[simp] theorem Cmd.arg_append (op : BitVec 4) (arg : BitVec 8) : Cmd.arg (op ++ arg) = arg := by
  unfold Cmd.arg
  ext i hi
  have h := BitVec.getLsbD_append (x := op) (y := arg) (i := 0 + i)
  rw [BitVec.getElem_extractLsb']
  exact h.trans (by simp [hi])

@[simp] theorem encode_op (i : Instr) : (encode i).op = i.opcode := Cmd.op_append _ _

@[simp] theorem encode_arg (i : Instr) : (encode i).arg = i.argument := Cmd.arg_append _ _

/-- A word is its `op` field above its `arg` field (30_encoding.md R90). -/
theorem Cmd.op_append_arg (w : Cmd) : (w.op ++ w.arg : BitVec 12) = w := by
  unfold Cmd.op Cmd.arg
  ext i hi
  simp only [BitVec.getElem_append, BitVec.getElem_extractLsb']
  split
  · simp [← BitVec.getLsbD_eq_getElem]
  · simp [← BitVec.getLsbD_eq_getElem, show 8 + (i - 8) = i by omega]

end Sys2Proof
end

