-- ==== Sys2Proof/Laws/PerInstr.lean ====
section
/-! SUPPORT. Families of statements made once for each command. `RowMatch`: the encoding of a command matches the
command's row of the opcode map (30_encoding.md R93). -/

namespace Sys2Proof.Laws.RowMatch

/-- The encoding of `i` matches its row, and the row stands in the opcode map. -/
def Statement (i : Instr) : Prop := i.row.Matches (encode i) = true ∧ i.row ∈ opcodeMap

/-- The mask of formats B and R keeps `op` and clears `arg` (30_encoding.md R93). -/
theorem op_mask (op : BitVec 4) (arg : BitVec 8) :
    (op ++ arg : BitVec 12) &&& 0xF00#12 = op ++ 0#8 := by
  have h := BitVec.and_append (x₁ := op) (x₂ := 0xF#4) (y₁ := arg) (y₂ := 0#8)
  rw [show op &&& 0xF#4 = op from BitVec.and_allOnes, BitVec.and_zero] at h
  exact h

/-- A word whose `op` is that of a row with the mask of formats B and R matches the row. -/
theorem matches_of_op (op : BitVec 4) (arg : BitVec 8) :
    OpcodeRow.Matches ⟨op ++ 0#8, 0xF00#12⟩ (op ++ arg) = true := by
  simp only [OpcodeRow.Matches, op_mask, decide_true]

theorem nop : Statement .nop := by unfold Statement; decide

theorem push (b : Byte) : Statement (.push b) :=
  ⟨matches_of_op 0x1#4 b, by simp [opcodeMap, Instr.row]⟩

theorem flush : Statement .flush := by unfold Statement; decide

theorem crcClr : Statement .crcClr := by unfold Statement; decide

theorem crcUpd (b : Byte) : Statement (.crcUpd b) :=
  ⟨matches_of_op 0x5#4 b, by simp [opcodeMap, Instr.row]⟩

theorem rdreg (r : RegNum) : Statement (.rdreg r) :=
  ⟨matches_of_op 0x7#4 r, by simp [opcodeMap, Instr.row]⟩

theorem srst : Statement .srst := by unfold Statement; decide

end Sys2Proof.Laws.RowMatch
end

