-- ==== Sys2Proof/Certificates/Slice0/Obligations.lean ====
section
/-! DEFINITION. The statements for the provers, from the spec's numbered rules. -/

open Sys2Proof Sys2Proof.Machine Sys2Proof.Safety

/-! ### The command word -/

/-- 30_encoding.md section 3 ("The decoder is total"): the decoder on the word whose fields are `op` and `arg`. -/
def Obligations.DecoderReadsOpThenArg : Prop :=
  ∀ (op : BitVec 4) (arg : BitVec 8),
    decode (op ++ arg) =
      if op = 0x1#4 then .ok (.push arg)
      else if op = 0x5#4 then .ok (.crcUpd arg)
      else if op = 0x7#4 then .ok (.rdreg arg)
      else if op = 0x0#4 ∨ op = 0x2#4 ∨ op = 0x4#4 ∨ op = 0xF#4 then
        if arg = 0#8 then
          .ok (if op = 0x0#4 then .nop else if op = 0x2#4 then .flush else if op = 0x4#4 then .crcClr else .srst)
        else .error (.nonZeroArgument op arg)
      else .error (.reservedOpcode op)

/-- A few words of 95_test_vectors.md and of the opcode map (30_encoding.md R93), bit by bit. -/
def Obligations.WordsOfTheOpcodeMapDecode : Prop :=
  decode 0b000000000000#12 = .ok .nop ∧
  decode 0b000111010011#12 = .ok (.push 0xD3#8) ∧
  decode 0b001000000000#12 = .ok .flush ∧
  decode 0b010000000000#12 = .ok .crcClr ∧
  decode 0b010100110001#12 = .ok (.crcUpd 0x31#8) ∧
  decode 0b011100000111#12 = .ok (.rdreg 0x07#8) ∧
  decode 0b111100000000#12 = .ok .srst ∧
  decode 0b001000000001#12 = .error (.nonZeroArgument 0x2#4 0x01#8) ∧
  decode 0b111000000000#12 = .error (.reservedOpcode 0xE#4)

/-- 30_encoding.md section 2: no bit of a command's encoding is dropped. -/
def Obligations.DecodeOfEncodeIsTheInstruction : Prop :=
  ∀ i : Instr, i.WellFormed = true → decode (encode i) = .ok i

/-- 30_encoding.md section 2: a command has one word. -/
def Obligations.EncodeOfDecodeIsTheWord : Prop :=
  ∀ (w : Cmd) (i : Instr), decode w = .ok i → encode i = w

/-- 30_encoding.md R93: which words are which command, row by row of the table; the rows' match sets are disjoint; a
word that matches no row is a reserved encoding; 772 of the 4096 words are commands. -/
def Obligations.RowsOfTheOpcodeMapPartitionTheWords : Prop :=
  (∀ w : Cmd,
    (decode w = .ok .nop ↔ w &&& 0xFFF#12 = 0x000#12) ∧
    ((∃ b, decode w = .ok (.push b)) ↔ w &&& 0xF00#12 = 0x100#12) ∧
    (decode w = .ok .flush ↔ w &&& 0xFFF#12 = 0x200#12) ∧
    (decode w = .ok .crcClr ↔ w &&& 0xFFF#12 = 0x400#12) ∧
    ((∃ b, decode w = .ok (.crcUpd b)) ↔ w &&& 0xF00#12 = 0x500#12) ∧
    ((∃ r, decode w = .ok (.rdreg r)) ↔ w &&& 0xF00#12 = 0x700#12) ∧
    (decode w = .ok .srst ↔ w &&& 0xFFF#12 = 0xF00#12) ∧
    (∀ a : BitVec 8, (decode w = .ok (.push a) ∨ decode w = .ok (.crcUpd a) ∨ decode w = .ok (.rdreg a)) →
      a = w.extractLsb' 0 8) ∧
    ((∃ e, decode w = .error e) ↔ ∀ r ∈ opcodeMap, r.Matches w = false)) ∧
  (∀ (w : Cmd) (r₁ r₂ : OpcodeRow), r₁ ∈ opcodeMap → r₂ ∈ opcodeMap → r₁.Matches w = true → r₂.Matches w = true →
    r₁ = r₂) ∧
  ((List.range 4096).countP fun k => (decodeTableWord 16 k).isSome) = 772

/-! ### Unit C -/

/-- 40_crc_engine.md R120: the byte update is the rule's loop on natural numbers, where no shift loses a bit. -/
def Obligations.CrcStepIsTheRulesLoop : Prop :=
  ∀ (a : Crc24) (b : Byte),
    (crcStep a b).toNat = crcLoopStep^[8] (a.toNat ^^^ (b.toNat <<< 16)) &&& 0xFFFFFF

/-- 40_crc_engine.md section 1 ("The final mask of `crc_step` never changes the value"): after `k` of the eight steps
the model's 25 bits (log entry 8) hold what the loop on natural numbers holds, and that is below `2^24`. -/
def Obligations.CrcMaskDropsNothing : Prop :=
  ∀ (a : Crc24) (b : Byte) (k : Nat), k ≤ 8 →
    (crcShifts k ((a ^^^ (b.setWidth 24 <<< 16)).setWidth 25)).toNat = crcLoopStep^[k] (a.toNat ^^^ (b.toNat <<< 16)) ∧
    crcLoopStep^[k] (a.toNat ^^^ (b.toNat <<< 16)) < 2 ^ 24

/-- 40_crc_engine.md R126: "`crc24q([]) = 0x000000`", and CRC.CLR then RDREG CRCACC responds `0x00000000`. -/
def Obligations.CrcOfNoBytesIsZero : Prop :=
  crc24q [] = 0x000000#24 ∧
  ∀ s : State, ∃ t, execAll (expandCrc24q []) s = .next t ∧ t.out = s.out ++ [.rsp 0x00000000#32]

/-- 40_crc_engine.md section 3 ("Leading zero bytes are invisible"): leading zero bytes are invisible. -/
def Obligations.LeadingZeroBytesAreInvisible : Prop :=
  crcStep 0#24 0x00#8 = 0#24 ∧
  ∀ (k : Nat) (s : List Byte), crc24q (List.replicate k 0x00#8 ++ s) = crc24q s

/-- 40_crc_engine.md section 3 ("Zero residue"): the residue of a message with a trailer is zero exactly when the
trailer is the CRC, and the framer's check is the same predicate as "`crc24q` of the whole frame, trailer included, is
0". -/
def Obligations.ZeroResidueExactlyForTheRightTrailer : Prop :=
  (∀ (s : List Byte) (c : Crc24), crc24q (s ++ crcTrailer c) = 0#24 ↔ c = crc24q s) ∧
  (∀ (s : State) (n : Nat), 3 ≤ n → n ≤ s.len → (s.calcCrc n = s.rxCrc n ↔ crc24q (s.slice 0 n) = 0#24))

/-- 40_crc_engine.md section 3 ("Linearity"): `crc24q(s xor t) = crc24q(s) ^ crc24q(t)`; so whether a corrupted frame
still passes depends only on the error pattern; every error confined to the trailer and every single-bit error fails
the check. -/
def Obligations.CrcIsLinear : Prop :=
  (∀ s t : List Byte, s.length = t.length → crc24q (List.zipWith (· ^^^ ·) s t) = crc24q s ^^^ crc24q t) ∧
  (∀ s e : List Byte, s.length = e.length → crc24q s = 0#24 →
    (crc24q (List.zipWith (· ^^^ ·) s e) = 0#24 ↔ crc24q e = 0#24)) ∧
  (∀ (s : List Byte) (c c' : Crc24), c' ≠ c → crc24q (s ++ crcTrailer c) = 0#24 → crc24q (s ++ crcTrailer c') ≠ 0#24) ∧
  (∀ (before after : List Byte) (b : Byte) (k : Nat), k < 8 →
    crc24q (before ++ b :: after) = 0#24 → crc24q (before ++ (b ^^^ (1#8 <<< k)) :: after) ≠ 0#24)


/-- 40_crc_engine.md section 3 ("Implementation freedom"): the table identity. -/
def Obligations.CrcTableIdentity : Prop :=
  ∀ (a : Crc24) (b : Byte), crcStep a b = (a <<< 8) ^^^ crcStep 0#24 (a.extractLsb' 16 8 ^^^ b)

/-- 40_crc_engine.md section 1 (the polynomial reading): `crc24q(s)` is the remainder of `M(x) * x^24` divided by
`G(x)` over GF(2), where bit `i` of a number is the coefficient of `x^i`. -/
def Obligations.CrcIsThePolynomialRemainder : Prop :=
  ∀ s : List Byte,
    (∑ i ∈ Finset.range 24, if (crc24q s).toNat.testBit i then (Polynomial.X : Polynomial (ZMod 2)) ^ i else 0) =
      ((∑ i ∈ Finset.range (8 * s.length), if (be s).testBit i then (Polynomial.X : Polynomial (ZMod 2)) ^ i else 0)
        * Polynomial.X ^ 24) %ₘ
      (∑ i ∈ Finset.range 25, if (0x1864CFB).testBit i then (Polynomial.X : Polynomial (ZMod 2)) ^ i else 0)

/-- 40_crc_engine.md R124. -/
def Obligations.CrcClrZeroesTheAccumulator : Prop :=
  ∀ s : State, exec .crcClr s = .next { s with acc := 0x000000#24 }

/-- 40_crc_engine.md R125. -/
def Obligations.CrcUpdFoldsInTheByte : Prop :=
  ∀ (s : State) (b : Byte), exec (.crcUpd b) s = .next { s with acc := crcStep s.acc b }

/-- 40_crc_engine.md section 2 (the sequence CRC.CLR, CRC.UPD, ...): whatever else is interleaved, the CRC.UPD bytes
since a CRC.CLR (or since reset) make the accumulator, and from any accumulator they continue. -/
def Obligations.CrcUpdSequenceComputesTheChecksum : Prop :=
  ∀ ws : List Cmd, (∀ w ∈ ws, decode w ≠ .ok .crcClr ∧ decode w ≠ .ok .srst) →
    (∀ s : State, ∃ t, runWords ws s = .next t ∧ t.acc = crcFrom s.acc (updBytes ws)) ∧
    (∀ s : State, ∃ t, runWords (0x400#12 :: ws) s = .next t ∧ t.acc = crc24q (updBytes ws)) ∧
    (∃ t, runWords ws State.reset = .next t ∧ t.acc = crc24q (updBytes ws))

/-- 42_system.md R185: the pseudo-instruction CRC24Q is CRC.CLR, the CRC.UPDs, RDREG CRCACC; it responds the checksum
and leaves it in `ACC`. What waits on the response port is ExecOutputsWaitOnTheirPorts' concern. -/
def Obligations.Crc24qPseudoRespondsTheChecksum : Prop :=
  ∀ (s : State) (bs : List Byte),
    expandCrc24q bs = .crcClr :: (bs.map Instr.crcUpd ++ [.rdreg 0x07#8]) ∧
    ∃ t, execAll (expandCrc24q bs) s = .next t ∧
      t = { s with acc := crc24q bs, out := s.out ++ [.rsp ((crc24q bs).setWidth 32)], rspPort := t.rspPort }

/-! ### System commands -/

/-- 42_system.md R180. -/
def Obligations.NopChangesNothing : Prop :=
  ∀ s : State, exec .nop s = .next s

/-- 42_system.md R181: RDREG responds `x[r]` and changes no element of the state, for any number `r`. What waits on the
response port is ExecOutputsWaitOnTheirPorts' concern. -/
def Obligations.RdregRespondsTheRegister : Prop :=
  ∀ (s : State) (r : RegNum),
    ∃ t, exec (.rdreg r) s = .next t ∧ t = { s with out := s.out ++ [.rsp (s.readReg r)], rspPort := t.rspPort } ∧
      (∀ r', t.readReg r' = s.readReg r') ∧ (0x0A ≤ r.toNat → s.readReg r = 0x00000000#32)

/-- 10_state.md R32: the register table, its reset column too. A number that needs more than 32 bits has no word in the
spec, so its row speaks of smaller ones (log entry 6: the model's word there is a free value). -/
def Obligations.RegisterTableWords : Prop :=
  (∀ s : State,
    s.readReg 0x00#8 =
      0#28 ++ BitVec.ofBool (s.len != 0) ++ BitVec.ofBool s.lastv ++ BitVec.ofBool s.ill ++ BitVec.ofBool s.ovf ∧
    (s.len < 2 ^ 32 → (s.readReg 0x01#8).toNat = s.len) ∧
    (s.msgs < 2 ^ 32 → (s.readReg 0x02#8).toNat = s.msgs) ∧
    (s.crcerr < 2 ^ 32 → (s.readReg 0x03#8).toNat = s.crcerr) ∧
    (s.readReg 0x04#8).toNat = s.lasthdr.toNat ∧
    (s.readReg 0x05#8).toNat = s.lastrx.toNat ∧
    (s.readReg 0x06#8).toNat = s.lastcalc.toNat ∧
    (s.readReg 0x07#8).toNat = s.acc.toNat ∧
    s.readReg 0x08#8 = 0x01864CFB#32 ∧
    (s.cfg.bufCap < 2 ^ 32 → (s.readReg 0x09#8).toNat = s.cfg.bufCap) ∧
    ∀ r : RegNum, 0x0A ≤ r.toNat → s.readReg r = 0x00000000#32) ∧
  (∀ c : Config,
    (∀ r : RegNum, r ≠ 0x08#8 → r ≠ 0x09#8 → (State.resetWith c).readReg r = 0x00000000#32) ∧
    (State.resetWith c).readReg 0x08#8 = 0x01864CFB#32 ∧
    (c.bufCap < 2 ^ 32 → ((State.resetWith c).readReg 0x09#8).toNat = c.bufCap)) ∧
  State.reset.readReg 0x09#8 = 0x00000405#32

/-- 10_state.md R40: the bits of `STATUS`, what sets each and what clears it. -/
def Obligations.StatusWordBits : Prop :=
  ∀ s : State,
    (∀ i : Nat,
      (s.readReg 0x00#8).getLsbD i =
        if i = 0 then s.ovf else if i = 1 then s.ill else if i = 2 then s.lastv
        else if i = 3 then decide (s.len ≠ 0) else false) ∧
    ((s.raise .bufferOverflow).readReg 0x00#8).getLsbD 0 = true ∧
    (∀ w : Cmd, ((s.raise (.illegalCommand w)).readReg 0x00#8).getLsbD 1 = true) ∧
    (∀ len : Len10, ((s.checkCandidate len).readReg 0x00#8).getLsbD 2 = true) ∧
    (∃ t, exec .srst s = .next t ∧ t.readReg 0x00#8 = 0#32) ∧
    (ResetNext s → ∃ t, step s = .next t ∧ t.readReg 0x00#8 = 0#32) ∧
    (∀ t, step s = .next t → ¬ ResetNext s → ¬ Offered s (.ok .srst) →
      ∀ i < 3, (s.readReg 0x00#8).getLsbD i = true → (t.readReg 0x00#8).getLsbD i = true)

/-- 42_system.md R182: SRST gives every element its reset value and leaves the trace, the ports, the inputs and the
configuration. -/
def Obligations.SrstResetsEveryElement : Prop :=
  ∀ s : State,
    exec .srst s =
      .next { s with acc := 0#24, buf := [], msgs := 0, crcerr := 0, ovf := false, ill := false, lastv := false,
                     lasthdr := 0#24, lastrx := 0#24, lastcalc := 0#24 }

/-- 10_state.md R38, 70_reset_and_hazards.md R241: the values after hardware reset, whatever the configuration, and
after SRST and the reset pin, whatever the state. -/
def Obligations.ResetValues : Prop :=
  (∀ c : Config, AtResetValues (State.resetWith c)) ∧
  (∀ s : State, ∃ t, exec .srst s = .next t ∧ AtResetValues t) ∧
  ∀ s : State, ResetNext s → ∃ t, step s = .next t ∧ AtResetValues t

/-- 70_reset_and_hazards.md section 1: the reset pin gives the state of `10_state.md` R38 and withdraws nothing from
`OUT`; the ports go idle and what waited on them is lost. The ports' queues are the model's (log entries 3 and 4). -/
def Obligations.ResetPinResetsTheBlock : Prop :=
  ∀ (s : State) (rest : List PortInput), s.inputs = .reset :: rest →
    step s =
      .next { s with acc := 0#24, buf := [], msgs := 0, crcerr := 0, ovf := false, ill := false, lastv := false,
                     lasthdr := 0#24, lastrx := 0#24, lastcalc := 0#24, inputs := rest, evtPort := [], rspPort := [] }

/-! ### Unit F -/

/-- 41_framer.md R154. -/
def Obligations.FlushEmptiesTheBuffer : Prop :=
  ∀ s : State, exec .flush s = .next { s with buf := [] }

/-- 41_framer.md section 1, PUSH, corner cases: with `LEN = 0` the preamble starts a frame and any other byte is
discarded. -/
def Obligations.PushOnAnEmptyBuffer : Prop :=
  ∀ (s : State) (b : Byte), s.len = 0 → s.cfg.bufCap ≠ 0 →
    exec (.push b) s = .next { s with buf := if b = 0xD3#8 then [(0, b)] else [] }

/-- 41_framer.md sections 1 and 2 (append, then steps 2 and 4): a byte that leaves the frame incomplete is appended and
nothing else happens. -/
def Obligations.PushCollectsAnIncompleteFrame : Prop :=
  ∀ (s : State) (b : Byte), Inv s → s.len ≠ 0 → s.len ≠ s.cfg.bufCap → Waits (s.append b) →
    exec (.push b) s = .next { s with buf := s.buf ++ [(s.len, b)] }

/-- 41_framer.md R142: after the overflow check there is room; the append stores the byte at offset `LEN` and no other
byte of the buffer changes; and PUSH of a byte that waits for more leaves exactly that. -/
def Obligations.PushStoresAtLen : Prop :=
  ∀ (s : State) (b : Byte), Inv s →
    (s.overflowCheck.len < s.cfg.bufCap ∧
      (s.overflowCheck.append b).len = s.overflowCheck.len + 1 ∧
      (s.overflowCheck.append b).byteAt s.overflowCheck.len = some b ∧
      ∀ a, a ≠ s.overflowCheck.len → (s.overflowCheck.append b).byteAt a = s.overflowCheck.byteAt a) ∧
    (s.len ≠ s.cfg.bufCap → Waits (s.append b) → (s.len = 0 → b = 0xD3#8) →
      ∃ t, exec (.push b) s = .next t ∧ t.len = s.len + 1 ∧ t.byteAt s.len = some b ∧
        ∀ a, a ≠ s.len → t.byteAt a = s.byteAt a)

/-- 41_framer.md R149, R151: the byte that completes a frame whose trailer is its CRC. What waits on the event port is
ExecOutputsWaitOnTheirPorts' concern. -/
def Obligations.PushCompletesAGoodFrame : Prop :=
  ∀ (s : State) (b : Byte) (res : BitVec 6) (len : Len10) (payload : List Byte),
    payload.length = len.toNat →
    s.bytes ++ [b] = frame res len payload (crc24q (frameBody res len payload)) →
    s.len ≠ s.cfg.bufCap →
    ∃ t, exec (.push b) s = .next t ∧
      t = { s with
        buf := []
        msgs := (s.msgs + 1) % 2 ^ s.cfg.cntW
        lastv := true
        lasthdr := 1#1 ++ BitVec.ofBool (payloadType payload).2 ++ (payloadType payload).1 ++ len
        lastrx := crc24q (frameBody res len payload)
        lastcalc := crc24q (frameBody res len payload)
        out := s.out ++ [.evt (.decoded len (payloadType payload).1 (payloadType payload).2
          (crc24q (frameBody res len payload)) payload)]
        evtPort := t.evtPort }

/-- 41_framer.md R152: the byte that completes a frame whose trailer is not its CRC. What waits on the event port is
ExecOutputsWaitOnTheirPorts' concern. -/
def Obligations.PushCompletesABadFrame : Prop :=
  ∀ (s : State) (b : Byte) (res : BitVec 6) (len : Len10) (payload : List Byte) (rx : Crc24),
    payload.length = len.toNat →
    s.bytes ++ [b] = frame res len payload rx →
    rx ≠ crc24q (frameBody res len payload) →
    s.len ≠ s.cfg.bufCap →
    ∃ t, exec (.push b) s = .next t ∧
      t = { s with
        buf := []
        crcerr := (s.crcerr + 1) % 2 ^ s.cfg.cntW
        lastv := true
        lasthdr := 0#1 ++ 0#1 ++ 0x000#12 ++ len
        lastrx := rx
        lastcalc := crc24q (frameBody res len payload)
        out := s.out ++ [.evt (.crcFail len rx (crc24q (frameBody res len payload))
          ((frame res len payload rx).take (min (len.toNat + 6) s.cfg.dumpMax)))]
        evtPort := t.evtPort }

/-- 41_framer.md R141: a PUSH on a full buffer empties it, records the overflow and examines its byte like any other.
`dropped` is a 32-bit field: for a `BUF_CAP` of more bits the spec states no value, and the statement none (log entry
6). What waits on the event port is ExecOutputsWaitOnTheirPorts' concern. -/
def Obligations.PushOnAFullBufferOverflows : Prop :=
  ∀ (s : State) (b : Byte), s.len = s.cfg.bufCap →
    ∃ (t : State) (d : Word32), exec (.push b) s = .next t ∧
      (s.cfg.bufCap < 2 ^ 32 → d.toNat = s.cfg.bufCap) ∧
      t = { s with
        buf := if b = 0xD3#8 then [(0, b)] else []
        ovf := true
        out := s.out ++ [.evt (.overflow d)]
        evtPort := t.evtPort }

/-- 41_framer.md R146: the two header bytes as a 10-bit length. -/
def Obligations.PayloadLengthOfTheHeader : Prop :=
  ∀ (s : State) (b0 b1 b2 : Byte) (rest : List Byte), s.bytes = b0 :: b1 :: b2 :: rest →
    s.payloadLength.toNat = ((b1 &&& 0x03#8).toNat <<< 8) ||| b2.toNat

/-- 41_framer.md R150: the first 12 bits of the payload. -/
def Obligations.MessageTypeOfThePayload : Prop :=
  ∀ (s : State) (b0 b1 b2 p0 p1 : Byte) (rest : List Byte), s.bytes = b0 :: b1 :: b2 :: p0 :: p1 :: rest →
    s.messageType.toNat = (p0.toNat <<< 4) ||| (p1.toNat >>> 4)

/-- 20_memory.md section 2 (the CRC trailer, the spec's decision D13): the trailer is read most significant byte first.
-/
def Obligations.ReceivedCrcIsBigEndian : Prop :=
  ∀ (s : State) (n : Nat) (x y z : Byte), 3 ≤ n → s.byteAt (n - 3) = some x → s.byteAt (n - 2) = some y →
    s.byteAt (n - 1) = some z → (s.rxCrc n).toNat = (x.toNat <<< 16) ||| (y.toNat <<< 8) ||| z.toNat

/-- 10_state.md section 5, 41_framer.md section 2 (WriteLast): the fields of `LASTHDR` after `WriteLast`. -/
def Obligations.LastHdrFields : Prop :=
  ∀ (s : State) (len : Len10) (type : Type12) (tv ok : Bool) (rx comp : Crc24),
    hdrLen10 (s.writeLast len type tv ok rx comp).lasthdr = len ∧
    hdrType (s.writeLast len type tv ok rx comp).lasthdr = type ∧
    hdrTypeValid (s.writeLast len type tv ok rx comp).lasthdr = tv ∧
    hdrCrcOk (s.writeLast len type tv ok rx comp).lasthdr = ok ∧
    (s.writeLast len type tv ok rx comp).lastrx = rx ∧
    (s.writeLast len type tv ok rx comp).lastcalc = comp ∧
    (s.writeLast len type tv ok rx comp).lastv = true

/-- 20_memory.md section 5 ("A buffer read is legal only when `addr + n <= LEN`"): in a pass that does not wait, every
byte the length, trailer, type, CRC and payload reads take has a value and is the byte the frame's layout names; and no
read of steps 3 to 7 changes, nor what the check of the candidate does, when bytes stand above `LEN`. -/
def Obligations.CandidateReadsAreBelowLen : Prop :=
  ∀ s : State, ¬ Waits s →
    (∃ b1 b2, s.byteAt 1 = some b1 ∧ s.byteAt 2 = some b2 ∧
      s.payloadLength.toNat = ((b1 &&& 0x03#8).toNat <<< 8) ||| b2.toNat) ∧
    (∃ x y z, s.byteAt (frameLength s.payloadLength - 3) = some x ∧ s.byteAt (frameLength s.payloadLength - 2) = some y ∧
      s.byteAt (frameLength s.payloadLength - 1) = some z ∧ s.rxCrc (frameLength s.payloadLength) = x ++ y ++ z) ∧
    (2 ≤ s.payloadLength.toNat →
      ∃ p0 p1, s.byteAt 3 = some p0 ∧ s.byteAt 4 = some p1 ∧ s.messageType = p0 ++ p1.extractLsb' 4 4) ∧
    (∃ body : List Byte, body.length = frameLength s.payloadLength - 3 ∧ (∀ a < body.length, s.byteAt a = body[a]?) ∧
      s.calcCrc (frameLength s.payloadLength) = crc24q body ∧ s.slice 3 s.payloadLength.toNat = body.drop 3) ∧
    ∀ xs : List Byte,
      (s.setBytes (s.bytes ++ xs)).payloadLength = s.payloadLength ∧
      (s.setBytes (s.bytes ++ xs)).rxCrc (frameLength s.payloadLength) = s.rxCrc (frameLength s.payloadLength) ∧
      (s.setBytes (s.bytes ++ xs)).calcCrc (frameLength s.payloadLength) = s.calcCrc (frameLength s.payloadLength) ∧
      (2 ≤ s.payloadLength.toNat → (s.setBytes (s.bytes ++ xs)).messageType = s.messageType) ∧
      (s.setBytes (s.bytes ++ xs)).slice 3 s.payloadLength.toNat = s.slice 3 s.payloadLength.toNat ∧
      (s.setBytes (s.bytes ++ xs)).checkCandidate s.payloadLength =
        (s.checkCandidate s.payloadLength).setBytes (s.bytes ++ xs)

/-- 41_framer.md section 4 ("`Extract` always ends"): `Extract` ends by one of its two returns, whatever is in the
buffer: the model's fuel is never used up (log entry 9). -/
def Obligations.ExtractEndsByAReturn : Prop :=
  ∀ s : State, (s.extract.len = 0 ∨ s.extract.byteAt 0 = some 0xD3#8) ∧ Waits s.extract

/-- 41_framer.md section 4 ("One PUSH does little"): one PUSH drops its own byte, or appends it, or completes the whole
buffer as one frame with one event, or overflows with one event; it always completes. -/
def Obligations.OnePushDoesLittle : Prop :=
  ∀ (s : State) (b : Byte), Inv s →
    ∃ t, exec (.push b) s = .next t ∧
      (t = s ∧ s.len = 0 ∧ b ≠ 0xD3#8 ∨
       t = { s with buf := s.buf ++ [(s.len, b)] } ∨
       (∃ e, (isDecoded e = true ∨ isCrcFail e = true) ∧ t.out = s.out ++ [.evt e] ∧ t.len = 0 ∧ t.ovf = s.ovf ∧
         s.len + 1 = frameLength (s.append b).payloadLength) ∨
       (∃ e, isOverflow e = true ∧ t.out = s.out ++ [.evt e] ∧ s.len = s.cfg.bufCap ∧ t.len ≤ 1 ∧
         t.msgs = s.msgs ∧ t.crcerr = s.crcerr ∧ t.lastv = s.lastv ∧ t.lasthdr = s.lasthdr ∧
         t.lastrx = s.lastrx ∧ t.lastcalc = s.lastcalc ∧ t.ovf = true))

/-- What PUSH leaves alone, in every state (10_state.md section 12; 41_framer.md section 1): `ACC`, `ILL`, the
configuration, the inputs, what was taken, the response port; the trace only grows, and what it grows by is what waits
on the event port (log entry 3). -/
def Obligations.PushFrame : Prop :=
  ∀ (s : State) (b : Byte), ∃ (t : State) (new : List Event),
    exec (.push b) s = .next t ∧ t.acc = s.acc ∧ t.ill = s.ill ∧ t.cfg = s.cfg ∧ t.inputs = s.inputs ∧
    t.evtTaken = s.evtTaken ∧ t.rspPort = s.rspPort ∧ t.rspTaken = s.rspTaken ∧
    t.out = s.out ++ new.map OutItem.evt ∧ t.evtPort = s.evtPort ++ new.flatMap Event.transfers

/-- 10_state.md section 12: the commands that store nothing leave every byte of the buffer, the counters, the flags and
the last-frame registers alone, and complete in every state. -/
def Obligations.CommandsThatDoNotTouchTheFramer : Prop :=
  ∀ (s : State) (i : Instr), (i = .nop ∨ i = .crcClr ∨ (∃ b, i = .crcUpd b) ∨ ∃ r, i = .rdreg r) →
    ∃ t, exec i s = .next t ∧ (∀ a, t.byteAt a = s.byteAt a) ∧ t.buf = s.buf ∧ t.len = s.len ∧ t.msgs = s.msgs ∧
      t.crcerr = s.crcerr ∧ t.ovf = s.ovf ∧ t.ill = s.ill ∧ t.lastv = s.lastv ∧ t.lasthdr = s.lasthdr ∧
      t.lastrx = s.lastrx ∧ t.lastcalc = s.lastcalc ∧ t.cfg = s.cfg ∧ t.inputs = s.inputs ∧ t.evtPort = s.evtPort ∧
      t.evtTaken = s.evtTaken ∧ t.rspTaken = s.rspTaken ∧ ((∀ r, i ≠ .rdreg r) → t.out = s.out)

/-- 41_framer.md section 2 (D8), 60_exceptions.md section 8: unit F neither reads nor writes `ACC`, and CRC.UPD and
PUSH commute. -/
def Obligations.UnitsAreIndependent : Prop :=
  ∀ (s : State) (b c : Byte),
    (∀ a : Crc24, ∃ t, exec (.push b) s = .next t ∧
      exec (.push b) { s with acc := a } = .next { t with acc := a }) ∧
    execAll [.push b, .crcUpd c] s = execAll [.crcUpd c, .push b] s

/-- 41_framer.md section 4 ("Chunking invariance"): PUSH of a byte sequence is the source's
append-everything-then-loop, as long as no overflow occurs, and so is any division of it into chunks. -/
def Obligations.ChunkingInvariance : Prop :=
  ∀ (s : State) (data : List Byte), Inv s →
    (∃ t, execAll (expandPushs data) s = .next t ∧
      (countEvents isOverflow t.out = countEvents isOverflow s.out → t = process data s)) ∧
    ∀ d₁ d₂, data = d₁ ++ d₂ → process d₂ (process d₁ s) = process data s

/-- 41_framer.md section 4 ("With `BUF_CAP >= 1029` BufferOverflow never happens"): OVERFLOW is emitted exactly when a
frame longer than `BUF_CAP` is being collected and `BUF_CAP` bytes of it are buffered; with 1029 or more, never. -/
def Obligations.OverflowNeverAtTheDefaultCap : Prop :=
  ∀ (s t : State) (b : Byte), Inv s → exec (.push b) s = .next t →
    ((∃ d, .evt (.overflow d) ∈ t.out.drop s.out.length) ↔
      s.len = s.cfg.bufCap ∧ s.byteAt 0 = some 0xD3#8 ∧ s.cfg.bufCap < frameLength s.payloadLength) ∧
    (s.len = s.cfg.bufCap → s.cfg.bufCap < 1029) ∧
    (1029 ≤ s.cfg.bufCap → t.ovf = s.ovf)

/-- 41_framer.md section 4 (what the rules do guarantee): a well-formed frame, no longer than `BUF_CAP`, pushed from an
empty buffer, is reported DECODED by the PUSH of its last byte (the event port's queue: log entry 3). -/
def Obligations.WellFormedFrameIsDecoded : Prop :=
  ∀ (s : State) (res : BitVec 6) (len : Len10) (payload : List Byte),
    payload.length = len.toNat → s.len = 0 → len.toNat + 6 ≤ s.cfg.bufCap →
    execAll (expandPushs (frame res len payload (crc24q (frameBody res len payload)))) s =
      .next { s with
        buf := []
        msgs := (s.msgs + 1) % 2 ^ s.cfg.cntW
        lastv := true
        lasthdr := 1#1 ++ BitVec.ofBool (payloadType payload).2 ++ (payloadType payload).1 ++ len
        lastrx := crc24q (frameBody res len payload)
        lastcalc := crc24q (frameBody res len payload)
        out := s.out ++ [.evt (.decoded len (payloadType payload).1 (payloadType payload).2
          (crc24q (frameBody res len payload)) payload)]
        evtPort := s.evtPort ++ (Event.decoded len (payloadType payload).1 (payloadType payload).2
          (crc24q (frameBody res len payload)) payload).transfers }

/-! ### Faults and events -/

/-- 60_exceptions.md R200, R207: what raising each fault writes and emits, and nothing else; the overflow also throws
the buffer away (41_framer.md R141). `dropped` as in PushOnAFullBufferOverflows (log entry 6); the event waits on the
event port (log entry 3). -/
def Obligations.RaiseRecordsAndEmits : Prop :=
  ∀ s : State,
    (∀ (len : Len10) (rx comp : Crc24) (dump : List Byte),
      s.raise (.crcMismatch len rx comp dump) =
        { s with crcerr := (s.crcerr + 1) % 2 ^ s.cfg.cntW, lasthdr := 0#1 ++ 0#1 ++ 0x000#12 ++ len, lastrx := rx,
                 lastcalc := comp, lastv := true, out := s.out ++ [.evt (.crcFail len rx comp dump)],
                 evtPort := s.evtPort ++ (Event.crcFail len rx comp dump).transfers }) ∧
    (∃ d : Word32, (s.cfg.bufCap < 2 ^ 32 → d.toNat = s.cfg.bufCap) ∧
      s.raise .bufferOverflow =
        { s with buf := [], ovf := true, out := s.out ++ [.evt (.overflow d)],
                 evtPort := s.evtPort ++ (Event.overflow d).transfers }) ∧
    (∀ w : Cmd,
      s.raise (.illegalCommand w) =
        { s with ill := true, out := s.out ++ [.evt (.illegal w)],
                 evtPort := s.evtPort ++ (Event.illegal w).transfers })

/-- 30_encoding.md R94: which words are reserved encodings, and that one sets `ILL`, emits `ILLEGAL(cmd = w)` and
changes nothing else. What waits on the event port is ExecOutputsWaitOnTheirPorts' concern. -/
def Obligations.ReservedEncodingIsRecorded : Prop :=
  ∀ (s : State) (op : BitVec 4) (arg : BitVec 8),
    ((∃ e, decode (op ++ arg) = .error e) ↔
      op ∈ [0x3#4, 0x6#4, 0x8#4, 0x9#4, 0xA#4, 0xB#4, 0xC#4, 0xD#4, 0xE#4] ∨
      op ∈ [0x0#4, 0x2#4, 0x4#4, 0xF#4] ∧ arg ≠ 0#8) ∧
    ((∃ e, decode (op ++ arg) = .error e) →
      ∃ t, runWord (op ++ arg) s = .next t ∧
        t = { s with ill := true, out := s.out ++ [.evt (.illegal (op ++ arg))], evtPort := t.evtPort })

/-- 60_exceptions.md R209: the sticky flags are cleared only by SRST and hardware reset; a step that reports an
overflow or an illegal command leaves its flag set, so a flag at 0 says that none happened since. -/
def Obligations.StickyFlagsStaySet : Prop :=
  ∀ s t : State, step s = .next t → ¬ ResetNext s → ¬ Offered s (.ok .srst) →
    (s.ovf = true → t.ovf = true) ∧ (s.ill = true → t.ill = true) ∧ (s.lastv = true → t.lastv = true) ∧
    ∃ new, t.out = s.out ++ new ∧ ((∃ d, .evt (.overflow d) ∈ new) → t.ovf = true) ∧
      ((∃ w, .evt (.illegal w) ∈ new) → t.ill = true)

/-- 10_state.md section 12: which inputs may write which element. -/
def Obligations.WritersOfEachElement : Prop :=
  ∀ s t : State, step s = .next t → ¬ ResetNext s → ¬ Offered s (.ok .srst) →
    (t.acc ≠ s.acc → Offered s (.ok .crcClr) ∨ ∃ b, Offered s (.ok (.crcUpd b))) ∧
    (t.buf ≠ s.buf → Offered s (.ok .flush) ∨ ∃ b, Offered s (.ok (.push b))) ∧
    (t.msgs ≠ s.msgs ∨ t.crcerr ≠ s.crcerr ∨ t.ovf ≠ s.ovf ∨ t.lastv ≠ s.lastv ∨ t.lasthdr ≠ s.lasthdr ∨
      t.lastrx ≠ s.lastrx ∨ t.lastcalc ≠ s.lastcalc → ∃ b, Offered s (.ok (.push b))) ∧
    (t.ill ≠ s.ill → ∃ e, Offered s (.error e)) ∧
    (t.out ≠ s.out →
      (∃ b, Offered s (.ok (.push b))) ∨ (∃ r, Offered s (.ok (.rdreg r))) ∨ ∃ e, Offered s (.error e)) ∧
    t.cfg = s.cfg

/-- 60_exceptions.md section 7: the counters count the DECODED and CRCFAIL events modulo `2^CNT_W`, step by step, while
nothing resets the block. -/
def Obligations.CountersCountTheEvents : Prop :=
  ∀ s t : State, step s = .next t → ¬ ResetNext s → ¬ Offered s (.ok .srst) →
    ∃ new, t.out = s.out ++ new ∧
      Nat.ModEq (2 ^ s.cfg.cntW) t.msgs (s.msgs + countEvents isDecoded new) ∧
      Nat.ModEq (2 ^ s.cfg.cntW) t.crcerr (s.crcerr + countEvents isCrcFail new)

/-- 30_encoding.md section 6: an event on the port, kind by kind: the three descriptor words, then the data bytes,
`evt_is_data` on the data and `evt_last` on the last transfer alone. -/
def Obligations.EventTransfersLayout : Prop :=
  (∀ (len : Len10) (type : Type12) (tv : Bool) (crc : Crc24) (payload : List Byte),
    (Event.decoded len type tv crc payload).transfers.map Transfer.word =
      [0#4 ++ 1#1 ++ BitVec.ofBool tv ++ type ++ len ++ 1#4, 0#8 ++ crc, 0#8 ++ crc] ++ payload.map (0#24 ++ ·)) ∧
  (∀ (len : Len10) (rx comp : Crc24) (dump : List Byte),
    (Event.crcFail len rx comp dump).transfers.map Transfer.word =
      [0#4 ++ 0#1 ++ 0#1 ++ 0#12 ++ len ++ 2#4, 0#8 ++ rx, 0#8 ++ comp] ++ dump.map (0#24 ++ ·)) ∧
  (∀ d : Word32, (Event.overflow d).transfers.map Transfer.word = [3#32, d, 0#32]) ∧
  (∀ w : Cmd, (Event.illegal w).transfers.map Transfer.word = [4#32, 0#20 ++ w, 0#32]) ∧
  ∀ e : Event,
    e.transfers.map Transfer.isData = [false, false, false] ++ List.replicate (e.transfers.length - 3) true ∧
    e.transfers.map Transfer.last = List.replicate (e.transfers.length - 1) false ++ [true]

/-- 30_encoding.md section 6: for the event of a checked frame `W0 = (zext_32(LASTHDR) << 4) | code`. -/
def Obligations.EventWordZeroIsLastHdr : Prop :=
  ∀ (s t : State) (b : Byte) (e : Event), Inv s → exec (.push b) s = .next t → t.out = s.out ++ [.evt e] →
    (isDecoded e = true ∨ isCrcFail e = true) →
    e.w0 = (t.lasthdr.setWidth 32 <<< 4) ||| e.code.setWidth 32

/-! ### Steps and invariants -/

/-- A step runs the decoded command: when the word offered decodes to `i`, the step is `exec` of `i` at the state in
which the word is no longer offered and the events of earlier commands have been handed over (20_memory.md R74, log
entries 1 and 3); when it is a reserved encoding, the step is its fault at that state. -/
def Obligations.StepRunsTheDecodedCommand : Prop :=
  ∀ (s : State) (w : Cmd) (rest : List PortInput), s.inputs = .command w :: rest →
    (∀ i : Instr, decode w = .ok i → i.WellFormed = true →
      step s = exec i { s with inputs := rest, evtTaken := s.evtTaken ++ s.evtPort, evtPort := [] }) ∧
    (∀ e : Reserved, decode w = .error e →
      step s =
        .next (({ s with inputs := rest, evtTaken := s.evtTaken ++ s.evtPort, evtPort := [] } : State).raise
          (.illegalCommand w)))

/-- 60_exceptions.md section 10: with nothing offered the block holds its state unchanged (log entry 12). -/
def Obligations.IdleBlockHoldsItsState : Prop :=
  ∀ s : State, s.inputs = [] → step s = .next s

/-- 00_scope.md section 4 ("Outcome of a command"): no input leaves the block stuck and none is refused, in any state,
and a command word appends a finite list of outputs to `OUT`. -/
def Obligations.EveryStepHasANextState : Prop :=
  ∀ s : State, (∃ t, step s = .next t) ∧ ∀ w : Cmd, ∃ t new, runWord w s = .next t ∧ t.out = s.out ++ new

/-- The invariant at reset (41_framer.md section 4, 10_state.md section 11; the parameters' values, log entry 5). -/
def Obligations.InvariantHoldsAtReset : Prop :=
  Inv State.reset

/-- 41_framer.md section 4 ("Invariant") with 20_memory.md section 5 (`LEN` never exceeds `BUF_CAP`), the ranges of
10_state.md section 1, the last-frame registers (10_state.md section 5) and the buffer's form (log entry 7): every step
keeps the invariant. -/
def Obligations.EveryStepKeepsTheInvariant : Prop :=
  ∀ s t : State, Inv s → step s = .next t → Inv t

/-- 41_framer.md section 4, "Consequently `LEN <= 1028` always"; 10_state.md section 4, `INFRAME` exactly when `BUF[0]
= 0xD3`. -/
def Obligations.InvariantBoundsTheBuffer : Prop :=
  ∀ s : State, Inv s → s.len ≤ 1028 ∧ Waits s ∧ (s.inFrame = true ↔ s.byteAt 0 = some 0xD3#8)

/-- 20_memory.md section 6: nothing is lost or reordered on the two ports by any step but a reset. The ports' queues
are the model's (log entry 3). -/
def Obligations.PortsCarryTheTraceInOrder : Prop :=
  PortsCarryTrace State.reset ∧
  ∀ s t : State, PortsCarryTrace s → step s = .next t → ¬ ResetNext s → PortsCarryTrace t

/-- 20_memory.md section 6: what a command appends to `OUT`, and nothing else, is what it puts on the two ports. The
ports' queues are the model's (log entry 3). -/
def Obligations.ExecOutputsWaitOnTheirPorts : Prop :=
  ∀ (s : State) (w : Cmd), ∃ (t : State) (new : List OutItem),
    runWord w s = .next t ∧ t.out = s.out ++ new ∧
    t.evtPort = s.evtPort ++ new.flatMap OutItem.transfers ∧
    t.rspPort = s.rspPort ++ new.flatMap OutItem.responses ∧
    t.evtTaken = s.evtTaken ∧ t.rspTaken = s.rspTaken ∧ t.inputs = s.inputs ∧ t.cfg = s.cfg

/-! ### The textual form -/

/-- 30_encoding.md R102: the pseudo-instructions' words. -/
def Obligations.PseudoInstructionsExpand : Prop :=
  assemble .crcRd = some [0x707#12] ∧
  (∀ bs : List Nat, bs.all byteInRange = true →
    assemble (.pushs bs) = some (bs.map (fun b => BitVec.ofNat 12 (0x100 + b)))) ∧
  (∀ bs : List Nat, bs.all byteInRange = true →
    assemble (.crc24q bs) = some (0x400#12 :: (bs.map (fun b => BitVec.ofNat 12 (0x500 + b)) ++ [0x707#12])))
end

