-- ==== Sys2Proof/Tests/Slice0.lean ====
section
/-! SUPPORT. Tests: expected values come from spec/95_test_vectors.md and from the worked examples of the rules, named
beside each. Then, for each statement with hypotheses, a witness that meets them all. -/

namespace Sys2Proof.Tests

open Sys2Proof.Machine Sys2Proof.Safety

/-! ### States the tests start from -/

/-- The vectors' configuration with a dump that takes whole frames (95_test_vectors.md, conventions). -/
def cfg : Config := ⟨1029, 32, 1029⟩

/-- The configuration of vectors F-12 and F-13. -/
def cfg8 : Config := ⟨8, 32, 1029⟩

/-- The state of reset with these bytes in the buffer. -/
def holding (c : Config) (bs : List Byte) : State := { State.resetWith c with buf := Memory.ofBytes bs }

/-- F-1 before its last byte. -/
def nearlyDone : State := holding cfg [0xD3#8, 0x00#8, 0x03#8, 0x3E#8, 0xD7#8, 0xD3#8, 0x2E#8, 0xAA#8]

/-- F-12 before its ninth byte. -/
def full8 : State := holding cfg8 [0xD3#8, 0x03#8, 0xFF#8, 0x01#8, 0x02#8, 0x03#8, 0x04#8, 0x05#8]

/-- The next state, or the state itself where there is none. -/
def after (i : Instr) (s : State) : State :=
  match exec i s with
  | .next t => t
  | .fault _ => s
  | .refused _ => s

/-! ### WellFormed: a term for each check, which the check refuses -/

theorem test_cfg_legal : cfg.WellFormed = true ∧ cfg8.WellFormed = true := by decide
theorem test_bufCap_below_six : (Config.mk 5 32 0).WellFormed = false ∧ (Config.mk 6 32 0).WellFormed = true := by decide
theorem test_cntW_zero : (Config.mk 6 0 0).WellFormed = false ∧ (Config.mk 6 1 0).WellFormed = true := by decide
theorem test_cntW_33 : (Config.mk 6 33 0).WellFormed = false ∧ (Config.mk 6 32 0).WellFormed = true := by decide
theorem test_dumpMax_1030 : (Config.mk 6 32 1030).WellFormed = false ∧ (Config.mk 6 32 1029).WellFormed = true := by
  decide
theorem test_push_256 : (AsmStmt.push 256).WellFormed = false := by decide
theorem test_crcUpd_256 : (AsmStmt.crcUpd 256).WellFormed = false := by decide
theorem test_rdreg_256 : (AsmStmt.rdreg (.number 256)).WellFormed = false := by decide
theorem test_word_13_bits : (AsmStmt.word 0x1000).WellFormed = false := by decide
theorem test_pushs_256 : (AsmStmt.pushs [0, 256]).WellFormed = false := by decide
theorem test_crc24q_256 : (AsmStmt.crc24q [256]).WellFormed = false := by decide

/-! ### Decoding, bit by bit from 30_encoding.md R93 and opcode_table.json -/

theorem test_decode_nop : decode 0b000000000000#12 = .ok .nop := by decide
theorem test_decode_push : decode 0b000111010011#12 = .ok (.push 0xD3#8) := by decide
theorem test_decode_flush : decode 0b001000000000#12 = .ok .flush := by decide
theorem test_decode_crcClr : decode 0b010000000000#12 = .ok .crcClr := by decide
theorem test_decode_crcUpd : decode 0b010110000001#12 = .ok (.crcUpd 0x81#8) := by decide
theorem test_decode_rdreg : decode 0b011100001001#12 = .ok (.rdreg 0x09#8) := by decide
theorem test_decode_srst : decode 0b111100000000#12 = .ok .srst := by decide
/-- Y-3's reserved words. -/
theorem test_decode_reserved :
    decode 0x300#12 = .error (.reservedOpcode 3) ∧ decode 0x6AB#12 = .error (.reservedOpcode 6) ∧
    decode 0x800#12 = .error (.reservedOpcode 8) ∧ decode 0xEFF#12 = .error (.reservedOpcode 0xE) ∧
    decode 0x001#12 = .error (.nonZeroArgument 0 1) ∧ decode 0x201#12 = .error (.nonZeroArgument 2 1) ∧
    decode 0x401#12 = .error (.nonZeroArgument 4 1) ∧ decode 0xF01#12 = .error (.nonZeroArgument 0xF 1) := by decide
/-- The table's numbering: 12 bits given as two whole bytes. -/
theorem test_decodeTableWord : decodeTableWord 16 0x5D3 = some (.crcUpd 0xD3#8) ∧ decodeTableWord 16 0x300 = none := by
  decide
/-- Y-4, by the opcode: of the 16 values of `op` with argument 0, seven are commands; with argument 1, three. -/
theorem test_census_by_opcode :
    ((List.range 16).countP fun k => (decodeTableWord 16 (k * 256)).isSome) = 7 ∧
    ((List.range 16).countP fun k => (decodeTableWord 16 (k * 256 + 1)).isSome) = 3 := by decide

/-! ### Unit C -/

/-- C-5: `crc_step(ABCDEF, 12) = 10FA06`; C-3: `crc_step(0, 01) = 864CFB`. -/
theorem test_crcStep : crcStep 0xABCDEF#24 0x12#8 = 0x10FA06#24 ∧ crcStep 0#24 0x01#8 = 0x864CFB#24 := by decide
/-- R125, worked example. -/
theorem test_crcUpd : (after (.crcUpd 0x31#8) (State.resetWith cfg)).acc = 0x4FD39B#24 := by decide
/-- R125, corner case: `ACC = 864CFB`, CRC.UPD 0x00 gives 668F48. -/
theorem test_crcUpd_continues :
    (after (.crcUpd 0x00#8) { State.resetWith cfg with acc := 0x864CFB#24 }).acc = 0x668F48#24 := by decide
/-- R124, worked example; a frame being collected is unaffected. -/
theorem test_crcClr :
    (after .crcClr { nearlyDone with acc := 0xCDE703#24 }).acc = 0#24 ∧
    (after .crcClr { nearlyDone with acc := 0xCDE703#24 }).len = 8 := by decide
/-- C-8: the check string. -/
theorem test_crc24q_check_string :
    crc24q [0x31#8, 0x32#8, 0x33#8, 0x34#8, 0x35#8, 0x36#8, 0x37#8, 0x38#8, 0x39#8] = 0xCDE703#24 := by
  decide +kernel

/-! ### Unit F -/

/-- F-1: the ninth byte. -/
theorem test_push_good :
    (after (.push 0xF4#8) nearlyDone).out =
      [.evt (.decoded 3#10 1005#12 true 0x2EAAF4#24 [0x3E#8, 0xD7#8, 0xD3#8])] ∧
    (after (.push 0xF4#8) nearlyDone).lasthdr = 0xCFB403#24 ∧ (after (.push 0xF4#8) nearlyDone).len = 0 := by
  decide +kernel
/-- F-1's packing: `W0`, `W1`, `W2`, then the data bytes, `evt_last` on the `D3`. -/
theorem test_push_good_port :
    (after (.push 0xF4#8) nearlyDone).evtPort =
      [⟨0x0CFB4031#32, false, false⟩, ⟨0x002EAAF4#32, false, false⟩, ⟨0x002EAAF4#32, false, false⟩,
       ⟨0x3E#32, true, false⟩, ⟨0xD7#32, true, false⟩, ⟨0xD3#32, true, true⟩] := by decide +kernel
/-- F-2: the ninth byte with all its bits inverted. -/
theorem test_push_bad :
    (after (.push 0x0B#8) nearlyDone).out =
      [.evt (.crcFail 3#10 0x2EAA0B#24 0x2EAAF4#24
        [0xD3#8, 0x00#8, 0x03#8, 0x3E#8, 0xD7#8, 0xD3#8, 0x2E#8, 0xAA#8, 0x0B#8])] ∧
    (after (.push 0x0B#8) nearlyDone).lasthdr = 0x000003#24 ∧ (after (.push 0x0B#8) nearlyDone).crcerr = 1 := by
  decide +kernel
/-- F-19: `DUMP_MAX = 4`. -/
theorem test_push_bad_dump :
    (after (.push 0x0B#8) { nearlyDone with cfg := ⟨1029, 32, 4⟩ }).out =
      [.evt (.crcFail 3#10 0x2EAA0B#24 0x2EAAF4#24 [0xD3#8, 0x00#8, 0x03#8, 0x3E#8])] := by decide +kernel
/-- F-3: the empty payload. -/
theorem test_push_no_payload :
    (after (.push 0x4B#8) (holding cfg [0xD3#8, 0#8, 0#8, 0x47#8, 0xEA#8])).out =
      [.evt (.decoded 0#10 0#12 false 0x47EA4B#24 [])] ∧
    (after (.push 0x4B#8) (holding cfg [0xD3#8, 0#8, 0#8, 0x47#8, 0xEA#8])).lasthdr = 0x800000#24 := by decide +kernel
/-- F-12, the ninth PUSH: OVERFLOW, its byte then discarded; `W0 = 3`, `W1 = 8`, `W2 = 0`. -/
theorem test_push_overflow :
    (after (.push 0x06#8) full8).out = [.evt (.overflow 8#32)] ∧ (after (.push 0x06#8) full8).len = 0 ∧
    (after (.push 0x06#8) full8).ovf = true ∧
    (after (.push 0x06#8) full8).evtPort = [⟨3#32, false, false⟩, ⟨8#32, false, false⟩, ⟨0#32, false, true⟩] := by
  decide +kernel
/-- F-15: a second `D3` is header byte 1; the buffer just grows. -/
theorem test_push_d3_in_header :
    (after (.push 0x00#8) (holding cfg [0xD3#8, 0xD3#8])).len = 3 ∧
    (after (.push 0x00#8) (holding cfg [0xD3#8, 0xD3#8])).payloadLength = 768#10 := by decide +kernel
/-- F-17 (a): FLUSH after two bytes. -/
theorem test_flush : (after .flush (holding cfg [0xD3#8, 0x00#8])).len = 0 := by decide

/-! ### System commands, inputs and the assembler -/

/-- Y-1 and R32. -/
theorem test_rdreg :
    (after (.rdreg 0x09#8) (State.resetWith cfg)).out = [.rsp 0x00000405#32] ∧
    (after (.rdreg 0x0A#8) (State.resetWith cfg)).out = [.rsp 0#32] := by decide
/-- Y-3: `STATUS = 0x0000000A` with `LEN = 2` and `ILL`. -/
theorem test_rdreg_status :
    (after (.rdreg 0x00#8) { holding cfg [0xD3#8, 0x00#8] with ill := true }).out = [.rsp 0x0000000A#32] := by decide
/-- R182, worked example. -/
theorem test_srst :
    after .srst { nearlyDone with msgs := 7, crcerr := 2, acc := 0x123456#24, ovf := true } = State.resetWith cfg := by
  decide
/-- R180. -/
theorem test_nop : after .nop nearlyDone = nearlyDone := by decide
/-- Y-3: a reserved word sets `ILL` and emits its event; packing `W0 = 4`, `W1 = 0x300`, `W2 = 0`. -/
theorem test_reserved :
    (match step ((State.resetWith cfg).present 0x300#12) with
     | .next t => (t.ill, t.out, t.evtPort, t.inputs)
     | .fault _ => (false, [], [], [])
     | .refused _ => (false, [], [], [])) =
      (true, [.evt (.illegal 0x300#12)], [⟨4#32, false, false⟩, ⟨0x300#32, false, false⟩, ⟨0#32, false, true⟩], []) := by
  decide
/-- The host's word at the fetch is the instruction the next step runs. -/
theorem test_withFetchWord :
    step (State.reset.withFetchWord 16 0x501) = exec (.crcUpd 0x01#8) State.reset := rfl
/-- R250: a reset pin loses what waits on the ports and withdraws nothing from `OUT`. -/
theorem test_reset_pin :
    (match step { after (.rdreg 0x08#8) (State.resetWith cfg) with inputs := [.reset] } with
     | .next t => (t.out, t.rspPort, t.rspTaken)
     | .fault _ => ([], [], [])
     | .refused _ => ([], [], [])) = ([.rsp 0x01864CFB#32], [], []) := by decide
/-- R101: program text, comment and all. -/
theorem test_assemble_line :
    assembleLine "CRC.UPD 0x31       ; 0x531".toList = some [0x531#12] ∧
    assembleLine "RDREG CRCACC".toList = some [0x707#12] ∧
    assembleLine "PUSHS 0xD3 0 3".toList = some [0x1D3#12, 0x100#12, 0x103#12] ∧
    assembleLine ".word 0x300".toList = some [0x300#12] ∧
    assembleLine "PUSH 256".toList = none ∧ assembleLine "; nothing".toList = some [] := by decide +kernel

/-! ### Witnesses: for each statement with hypotheses, operands that meet them all -/

theorem witness_inv_empty : Inv (State.resetWith cfg) :=
  ⟨by decide, by decide, .inl rfl, by unfold RangeInv; decide, by unfold LastFrameInv; decide⟩

theorem witness_inv_header : Inv (holding cfg [0xD3#8]) :=
  ⟨by decide, by decide, .inr (.inl (by decide)), by unfold RangeInv; decide, by unfold LastFrameInv; decide⟩

theorem witness_inv_body : Inv nearlyDone :=
  ⟨by decide, by decide, .inr (.inr ⟨0x00#8, 0x03#8, [0x3E#8, 0xD7#8, 0xD3#8, 0x2E#8, 0xAA#8], rfl, by decide⟩),
    by unfold RangeInv; decide, by unfold LastFrameInv; decide⟩

theorem witness_inv_full : Inv full8 :=
  ⟨by decide, by decide, .inr (.inr ⟨0x03#8, 0xFF#8, [0x01#8, 0x02#8, 0x03#8, 0x04#8, 0x05#8], rfl, by decide⟩),
    by unfold RangeInv; decide, by unfold LastFrameInv; decide⟩

theorem witness_DecodeOfEncodeIsTheInstruction : (Instr.push 0xFF#8).WellFormed = true := rfl

theorem witness_EncodeOfDecodeIsTheWord : decode 0x7FF#12 = .ok (.rdreg 0xFF#8) := by decide

theorem witness_RowsOfTheOpcodeMap :
    decode 0x5FF#12 = .ok (.crcUpd 0xFF#8) ∧ Instr.srst.row ∈ opcodeMap ∧
    Instr.srst.row.Matches 0xF00#12 = true ∧ decode 0xF00#12 = .ok .srst ∧
    opcodeMap.all (fun r => !r.Matches 0xF01#12) = true := by decide

theorem witness_CrcMaskDropsNothing : (0 : Nat) ≤ 8 ∧ (8 : Nat) ≤ 8 := by decide

/-- C-7: the frame of F-1 leaves residue zero; the state holds it whole. -/
theorem witness_residue :
    crc24q [0xD3#8, 0x00#8, 0x03#8, 0x3E#8, 0xD7#8, 0xD3#8, 0x2E#8, 0xAA#8, 0xF4#8] = 0#24 ∧
    3 ≤ 8 ∧ 8 ≤ nearlyDone.len := by decide +kernel

/-- Operands of each clause: two sequences of one byte; a frame of the residue zero; two trailers; a bit of a byte. -/
theorem witness_CrcIsLinear :
    [0x81#8].length = [0x01#8].length ∧ (0x864CFA#24 : Crc24) ≠ 0x864CFB#24 ∧
    crc24q ([0x01#8] ++ crcTrailer 0x864CFB#24) = 0#24 ∧
    (7 : Nat) < 8 ∧ crc24q ([0x01#8] ++ 0x86#8 :: [0x4C#8, 0xFB#8]) = 0#24 := by decide +kernel

theorem witness_CrcUpdSequence :
    ∀ w ∈ [0x501#12, 0x300#12, 0x000#12, 0x1D3#12, 0x200#12, 0x707#12],
      decode w ≠ .ok .crcClr ∧ decode w ≠ .ok .srst := by
  intro w hw
  simp only [List.mem_cons, List.not_mem_nil, or_false] at hw
  rcases hw with rfl | rfl | rfl | rfl | rfl | rfl <;> exact ⟨by nofun, by nofun⟩

theorem witness_RegisterTableWords :
    nearlyDone.len < 2 ^ 32 ∧ nearlyDone.msgs < 2 ^ 32 ∧ nearlyDone.crcerr < 2 ^ 32 ∧ nearlyDone.cfg.bufCap < 2 ^ 32 ∧
    0x0A ≤ (0x0A#8).toNat ∧ 0x0A ≤ (0xFF#8).toNat := by decide

theorem witness_ResetNext : ResetNext { nearlyDone with inputs := [.reset] } := ⟨[], rfl⟩

theorem witness_ResetPin : ({ nearlyDone with inputs := [.reset, .takeEvent] } : State).inputs = .reset :: [.takeEvent] :=
  rfl

theorem witness_PushOnAnEmptyBuffer : (State.resetWith cfg).len = 0 ∧ (State.resetWith cfg).cfg.bufCap ≠ 0 := by decide

/-- Both clauses of `Waits` at their boundary: 5 bytes, and 8 of 9 bytes. -/
theorem witness_PushCollects :
    Inv (holding cfg [0xD3#8]) ∧ (holding cfg [0xD3#8]).len ≠ 0 ∧ (holding cfg [0xD3#8]).len ≠ cfg.bufCap ∧
    Waits ((holding cfg [0xD3#8]).append 0x00#8) ∧
    Waits ((holding cfg [0xD3#8, 0x00#8, 0x03#8, 0x3E#8, 0xD7#8, 0xD3#8, 0x2E#8]).append 0xAA#8) :=
  ⟨witness_inv_header, by decide, by decide, .inl (by decide), .inr (by decide)⟩

/-- A full buffer for the first clause, an empty and a filling one for the second. -/
theorem witness_PushStoresAtLen :
    Inv full8 ∧
    Inv (State.resetWith cfg) ∧ (State.resetWith cfg).len ≠ cfg.bufCap ∧ Waits ((State.resetWith cfg).append 0xD3#8) ∧
    ((State.resetWith cfg).len = 0 → (0xD3#8 : Byte) = 0xD3#8) ∧ (nearlyDone.len = 0 → (0x00#8 : Byte) = 0xD3#8) :=
  ⟨witness_inv_full, witness_inv_empty, by decide, .inl (by decide), fun _ => rfl, by decide⟩

theorem witness_PushCompletesAGoodFrame :
    [0x3E#8, 0xD7#8, 0xD3#8].length = (3#10).toNat ∧
    nearlyDone.bytes ++ [0xF4#8] =
      frame 0#6 3#10 [0x3E#8, 0xD7#8, 0xD3#8] (crc24q (frameBody 0#6 3#10 [0x3E#8, 0xD7#8, 0xD3#8])) ∧
    nearlyDone.len ≠ nearlyDone.cfg.bufCap := by decide +kernel

theorem witness_PushCompletesABadFrame :
    [0x3E#8, 0xD7#8, 0xD3#8].length = (3#10).toNat ∧
    nearlyDone.bytes ++ [0x0B#8] = frame 0#6 3#10 [0x3E#8, 0xD7#8, 0xD3#8] 0x2EAA0B#24 ∧
    0x2EAA0B#24 ≠ crc24q (frameBody 0#6 3#10 [0x3E#8, 0xD7#8, 0xD3#8]) ∧ nearlyDone.len ≠ nearlyDone.cfg.bufCap := by
  decide +kernel

theorem witness_PushOnAFullBuffer : full8.len = full8.cfg.bufCap ∧ full8.cfg.bufCap < 2 ^ 32 := by decide

theorem witness_PayloadLength_MessageType :
    nearlyDone.bytes = 0xD3#8 :: 0x00#8 :: 0x03#8 :: 0x3E#8 :: 0xD7#8 :: [0xD3#8, 0x2E#8, 0xAA#8] := rfl

theorem witness_ReceivedCrc :
    3 ≤ 8 ∧ nearlyDone.byteAt (8 - 3) = some 0xD3#8 ∧ nearlyDone.byteAt (8 - 2) = some 0x2E#8 ∧
    nearlyDone.byteAt (8 - 1) = some 0xAA#8 := by decide

/-- A buffer whose first frame, the smallest, is all there, and one with the shortest frame that has a type. -/
theorem witness_CandidateReads :
    ¬ Waits (holding cfg [0xD3#8, 0#8, 0#8, 0x47#8, 0xEA#8, 0x4B#8]) ∧
    ¬ Waits (holding cfg [0xD3#8, 0#8, 2#8, 0x3E#8, 0xD0#8, 0xA4#8, 0xE0#8, 0#8]) ∧
    2 ≤ (holding cfg [0xD3#8, 0#8, 2#8, 0x3E#8, 0xD0#8, 0xA4#8, 0xE0#8, 0#8]).payloadLength.toNat := by
  unfold Waits
  decide +kernel

/-- All four outcomes of `OnePushDoesLittle` happen: dropped, appended, checked, overflowed. -/
theorem witness_OnePush_outcomes :
    after (.push 0x00#8) (State.resetWith cfg) = State.resetWith cfg ∧
    (after (.push 0xD3#8) (State.resetWith cfg)).buf = [(0, 0xD3#8)] ∧
    (after (.push 0x0B#8) nearlyDone).len = 0 ∧ (after (.push 0xD3#8) full8).buf = [(0, 0xD3#8)] := by decide +kernel

theorem witness_CommandsThatDoNotTouch (r : RegNum) : ∃ r', Instr.rdreg r = .rdreg r' := ⟨r, rfl⟩

/-- `ChunkingInvariance` with no overflow, and a division into chunks. -/
theorem witness_Chunking :
    Inv nearlyDone ∧ countEvents isOverflow (process [0xF4#8] nearlyDone).out = countEvents isOverflow nearlyDone.out ∧
    [0xAA#8, 0xF4#8] = [0xAA#8] ++ [0xF4#8] :=
  ⟨witness_inv_body, by decide +kernel⟩

theorem witness_Overflow_bounds :
    (Inv nearlyDone ∧ exec (.push 0xF4#8) nearlyDone = .next (after (.push 0xF4#8) nearlyDone)) ∧
    (Inv full8 ∧ exec (.push 0x06#8) full8 = .next (after (.push 0x06#8) full8)) ∧
    1029 ≤ nearlyDone.cfg.bufCap ∧ full8.len = full8.cfg.bufCap ∧ full8.byteAt 0 = some 0xD3#8 ∧
    full8.cfg.bufCap < frameLength full8.payloadLength :=
  ⟨⟨witness_inv_body, rfl⟩, ⟨witness_inv_full, rfl⟩, by decide +kernel⟩

theorem witness_WellFormedFrame :
    [0x3E#8, 0xD7#8, 0xD3#8].length = (3#10).toNat ∧ (State.resetWith cfg).len = 0 ∧
    (3#10).toNat + 6 ≤ (State.resetWith cfg).cfg.bufCap ∧ (0#10).toNat + 6 ≤ (Config.mk 6 32 0).bufCap := by decide

theorem witness_Reserved :
    decode (0xE#4 ++ 0x00#8) = .error (.reservedOpcode 0xE#4) ∧
    decode (0xF#4 ++ 0x01#8) = .error (.nonZeroArgument 0xF#4 0x01#8) ∧
    ((State.resetWith cfg).present 0x300#12).inputs = .command 0x300#12 :: [] ∧
    decode 0x300#12 = .error (.reservedOpcode 3) := by decide

/-- `F4` offered, with every sticky flag set. -/
def offered : State := ({ nearlyDone with ovf := true, ill := true, lastv := true } : State).present 0x1F4#12

/-- A step that is neither a reset nor SRST, with every sticky flag set. -/
theorem witness_StickyFlags_Writers_Counters :
    (∃ t, step offered = .next t) ∧ ¬ ResetNext offered ∧ ¬ Offered offered (.ok .srst) ∧
    offered.ovf = true ∧ offered.ill = true ∧ offered.lastv = true := by
  refine ⟨⟨_, rfl⟩, ?_, ?_, rfl, rfl, rfl⟩
  · rintro ⟨rest, h⟩
    simp [offered] at h
  · rintro ⟨w, rest, h, hd⟩
    simp only [offered, State.present_inputs, List.cons.injEq, PortInput.command.injEq] at h
    rw [← h.1] at hd
    exact absurd hd (by nofun)

theorem witness_EventWordZero :
    Inv nearlyDone ∧ exec (.push 0xF4#8) nearlyDone = .next (after (.push 0xF4#8) nearlyDone) ∧
    (after (.push 0xF4#8) nearlyDone).out =
      nearlyDone.out ++ [.evt (.decoded 3#10 1005#12 true 0x2EAAF4#24 [0x3E#8, 0xD7#8, 0xD3#8])] ∧
    isDecoded (.decoded 3#10 1005#12 true 0x2EAAF4#24 [0x3E#8, 0xD7#8, 0xD3#8]) = true :=
  ⟨witness_inv_body, rfl, by decide +kernel⟩

theorem witness_StepRuns :
    (nearlyDone.present 0x1F4#12).inputs = .command 0x1F4#12 :: [] ∧ decode 0x1F4#12 = .ok (.push 0xF4#8) ∧
    (Instr.push 0xF4#8).WellFormed = true := by decide

theorem witness_Idle : nearlyDone.inputs = [] := rfl

theorem witness_EveryStepKeeps : Inv nearlyDone ∧ ∃ t, step nearlyDone = .next t := ⟨witness_inv_body, nearlyDone, rfl⟩

theorem witness_Ports :
    PortsCarryTrace (after (.rdreg 0x08#8) (State.resetWith cfg)) ∧
    (∃ t, step (after (.rdreg 0x08#8) (State.resetWith cfg)) = .next t) ∧
    ¬ ResetNext (after (.rdreg 0x08#8) (State.resetWith cfg)) := by
  unfold PortsCarryTrace
  exact ⟨by decide, ⟨_, rfl⟩, fun ⟨_, h⟩ => absurd h (by nofun)⟩

theorem witness_Pseudo : [0, 255].all byteInRange = true := by decide

theorem witness_Raise : nearlyDone.cfg.bufCap < 2 ^ 32 ∧ full8.len = full8.cfg.bufCap ∧ full8.cfg.bufCap < 2 ^ 32 := by
  decide

end Sys2Proof.Tests
end

section
/-! SUPPORT. The register table, the reset values and the flags of `STATUS` (10_state.md R32, R38, R40), and the proofs
of the statements about them. -/

namespace Sys2Proof.Machine

open Sys2Proof.Safety

/-! ### The register table (10_state.md R32) -/

theorem zext32_toNat {v : Nat} (h : v < 2 ^ 32) : (zext32 v).toNat = v := by
  rw [zext32_of_lt h, BitVec.toNat_ofNat, Nat.mod_eq_of_lt h]

theorem toNat_zext_crc24 (c : Crc24) : (c.setWidth 32).toNat = c.toNat :=
  BitVec.toNat_setWidth_of_le (by decide)

@[simp] theorem regNamed_regNumber (n : RegName) : regNamed (regNumber n) = some n := by
  cases n <;> rfl

theorem regNumber_of_regNamed {r : RegNum} {n : RegName} (h : regNamed r = some n) : r = regNumber n := by
  apply BitVec.eq_of_toNat_eq
  unfold regNamed at h
  split at h <;> cases h <;> assumption

theorem regNamed_reserved {r : RegNum} (h : 0x0A ≤ r.toNat) : regNamed r = none := by
  unfold regNamed
  split
  case h_11 => rfl
  all_goals omega

@[simp] theorem State.readReg_regNumber (s : State) (n : RegName) : s.readReg (regNumber n) = s.regWord n := by
  simp [State.readReg]

theorem State.readReg_reserved (s : State) {r : RegNum} (h : 0x0A ≤ r.toNat) : s.readReg r = 0x00000000#32 := by
  simp [State.readReg, regNamed_reserved h]

@[simp] theorem State.readReg_status (s : State) : s.readReg 0x00#8 = s.statusWord :=
  s.readReg_regNumber .status

/-! ### The state at its reset values (10_state.md R38) -/

theorem atResetValues_resetWith (c : Config) : AtResetValues (State.resetWith c) := by
  simp [AtResetValues, State.len, State.byteAt, State.bytes]

theorem atResetValues_clear (s : State) : AtResetValues s.clear := by
  simp [AtResetValues, State.byteAt]

/-- The reset pin clears like SRST; the ports it also empties are no element of R38. -/
theorem atResetValues_hardwareReset (s : State) : AtResetValues s.hardwareReset :=
  atResetValues_clear s

theorem step_of_resetNext {s : State} (h : ResetNext s) : ∃ t, step s = .next t ∧ AtResetValues t := by
  obtain ⟨rest, hin⟩ := h
  exact ⟨_, step_of_input hin, atResetValues_hardwareReset _⟩

/-- Settles O23: each of the three resets is an update whose fields are the reset values. -/
theorem resetValues : Obligations.ResetValues :=
  ⟨atResetValues_resetWith, fun s => ⟨s.clear, exec_srst s, atResetValues_clear s⟩, fun _ => step_of_resetNext⟩

/-- The reset column of R32: all but POLY and BUFCAP read zero. -/
theorem regWord_of_atResetValues {s : State} (h : AtResetValues s) {n : RegName} (hp : n ≠ .poly)
    (hb : n ≠ .bufcap) : s.regWord n = 0#32 := by
  obtain ⟨hacc, hlen, -, hmsgs, hcrcerr, hovf, hill, hlastv, hhdr, hrx, hcalc⟩ := h
  cases n
  case poly => exact absurd rfl hp
  case bufcap => exact absurd rfl hb
  case status => simp [State.regWord, State.statusWord, State.inFrame, hlen, hovf, hill, hlastv]
  all_goals simp [State.regWord, zext32, hacc, hlen, hmsgs, hcrcerr, hhdr, hrx, hcalc]

theorem readReg_of_atResetValues {s : State} (h : AtResetValues s) {r : RegNum} (hp : r ≠ 0x08#8)
    (hb : r ≠ 0x09#8) : s.readReg r = 0x00000000#32 := by
  cases hr : regNamed r with
  | none => simp [State.readReg, hr]
  | some n =>
    obtain rfl := regNumber_of_regNamed hr
    rw [State.readReg_regNumber]
    exact regWord_of_atResetValues h (ne_of_apply_ne regNumber hp) (ne_of_apply_ne regNumber hb)

/-- Settles O20: each number names its row, and each row reads its element, widened without loss. -/
theorem registerTableWords : Obligations.RegisterTableWords := by
  refine ⟨fun s => ⟨s.readReg_status, zext32_toNat, zext32_toNat, zext32_toNat, toNat_zext_crc24 _,
    toNat_zext_crc24 _, toNat_zext_crc24 _, toNat_zext_crc24 _, rfl, zext32_toNat, fun _ => s.readReg_reserved⟩,
    fun c => ⟨fun _ => readReg_of_atResetValues (atResetValues_resetWith c), rfl, zext32_toNat⟩, ?_⟩
  exact zext32_of_lt (v := 1029) (by decide)

/-! ### What a step can do -/

theorem exec_nop (s : State) : exec .nop s = .next s := rfl

theorem exec_crcClr (s : State) : exec .crcClr s = .next { s with acc := 0x000000#24 } := rfl

theorem exec_crcUpd (b : Byte) (s : State) : exec (.crcUpd b) s = .next { s with acc := crcStep s.acc b } := rfl

/-- Everything a step that answers a next state can have done: nothing, a command, a reserved encoding's fault, the
reset pin, or a taking from a port. -/
theorem step_cases {s t : State} (h : step s = .next t) :
    (s.inputs = [] ∧ t = s) ∨
    (∃ w rest i, s.inputs = .command w :: rest ∧ decode w = .ok i ∧ exec i (s.accept rest) = .next t) ∨
    (∃ w rest e, s.inputs = .command w :: rest ∧ decode w = .error e ∧
      t = (s.accept rest).raise (.illegalCommand w)) ∨
    (∃ rest, s.inputs = .reset :: rest ∧ t = ({ s with inputs := rest } : State).hardwareReset) ∨
    (∃ rest, s.inputs = .takeEvent :: rest ∧ t = ({ s with inputs := rest } : State).takeEvent) ∨
    (∃ rest, s.inputs = .takeResponse :: rest ∧ t = ({ s with inputs := rest } : State).takeResponse) := by
  cases hin : s.inputs with
  | nil =>
    rw [step_idle hin] at h
    cases h
    simp
  | cons i rest =>
    rw [step_of_input hin] at h
    cases i with
    | command w =>
      rw [takeInput_command] at h
      cases hd : decode w with
      | ok i =>
        rw [runWord_ok hd] at h
        simp [hd, h]
      | error e =>
        rw [runWord_error hd] at h
        cases h
        simp [hd]
    | reset => cases h; simp
    | takeEvent => cases h; simp
    | takeResponse => cases h; simp

/-! ### The sticky flags (10_state.md R40) -/

/-- Each of `OVF`, `ILL` and `LASTV` that is 1 in `s` is 1 in `t`. -/
structure FlagsKept (s t : State) : Prop where
  ovf : s.ovf = true → t.ovf = true
  ill : s.ill = true → t.ill = true
  lastv : s.lastv = true → t.lastv = true

theorem FlagsKept.refl (s : State) : FlagsKept s s := ⟨id, id, id⟩

theorem FlagsKept.trans {s t u : State} (h : FlagsKept s t) (k : FlagsKept t u) : FlagsKept s u :=
  ⟨k.ovf ∘ h.ovf, k.ill ∘ h.ill, k.lastv ∘ h.lastv⟩

/-- A check of a candidate sets `LASTV`, whatever the CRCs say (R149, R152). -/
@[simp] theorem State.checkCandidate_lastv (s : State) (len : Len10) : (s.checkCandidate len).lastv = true := by
  rcases s.checkCandidate_cases len with ⟨_, h⟩ | ⟨_, h⟩ <;> simp [h, State.step6_eq, State.step7_eq]

theorem flagsKept_raise (s : State) (f : FaultInfo) : FlagsKept s (s.raise f) := by
  cases f with
  | crcMismatch len rx comp dump => exact ⟨id, id, fun _ => rfl⟩
  | bufferOverflow => exact ⟨fun _ => rfl, id, id⟩
  | illegalCommand w => exact ⟨id, fun _ => rfl, id⟩

theorem flagsKept_overflowCheck (s : State) : FlagsKept s s.overflowCheck := by
  rcases s.overflowCheck_cases with ⟨_, h⟩ | ⟨_, h⟩ <;> rw [h]
  · exact flagsKept_raise s _
  · exact .refl s

theorem flagsKept_extract (s : State) : FlagsKept s s.extract where
  ovf := by simp
  ill := by simp
  lastv := State.extract_keeps (P := fun t => s.lastv = true → t.lastv = true) (fun _ h => h) (by simp) id

/-- Only SRST clears a flag. -/
theorem flagsKept_exec {i : Instr} {s t : State} (h : exec i s = .next t) (hi : i ≠ .srst) : FlagsKept s t := by
  cases i with
  | nop => cases h; exact .refl s
  | push b =>
    cases h
    have happend : FlagsKept s (s.overflowCheck.append b) :=
      (flagsKept_overflowCheck s).trans ⟨id, id, id⟩
    exact happend.trans (flagsKept_extract _)
  | flush => cases h; exact ⟨id, id, id⟩
  | crcClr => cases h; exact ⟨id, id, id⟩
  | crcUpd b => cases h; exact ⟨id, id, id⟩
  | rdreg r => cases h; exact ⟨id, id, id⟩
  | srst => exact absurd rfl hi

/-- Of all steps only SRST and the reset pin clear a flag. -/
theorem flagsKept_step {s t : State} (h : step s = .next t) (hreset : ¬ ResetNext s)
    (hsrst : ¬ Offered s (.ok .srst)) : FlagsKept s t := by
  rcases step_cases h with ⟨_, rfl⟩ | ⟨w, rest, i, hin, hd, he⟩ | ⟨w, rest, e, _, _, rfl⟩ | ⟨rest, hin, _⟩ |
    ⟨rest, _, rfl⟩ | ⟨rest, _, rfl⟩
  · exact .refl t
  · have hi : i ≠ .srst := by
      rintro rfl
      exact hsrst ⟨w, rest, hin, hd⟩
    have haccept : FlagsKept s (s.accept rest) := ⟨id, id, id⟩
    exact haccept.trans (flagsKept_exec he hi)
  · have haccept : FlagsKept s (s.accept rest) := ⟨id, id, id⟩
    exact haccept.trans (flagsKept_raise _ _)
  · exact absurd ⟨rest, hin⟩ hreset
  · exact ⟨id, id, id⟩
  · exact ⟨id, id, id⟩

/-! ### The bits of `STATUS` (10_state.md R40) -/

/-- The bits of a word with one bit joined on below it, as `STATUS` is composed. -/
theorem getLsbD_append_ofBool {n : Nat} (x : BitVec n) (b : Bool) (i : Nat) :
    (x ++ BitVec.ofBool b).getLsbD i = if i = 0 then b else x.getLsbD (i - 1) :=
  BitVec.getLsbD_concat x b i

theorem State.statusWord_getLsbD (s : State) (i : Nat) :
    s.statusWord.getLsbD i =
      if i = 0 then s.ovf else if i = 1 then s.ill else if i = 2 then s.lastv
      else if i = 3 then decide (s.len ≠ 0) else false := by
  simp only [State.statusWord, State.inFrame, getLsbD_append_ofBool]
  match i with
  | 0 | 1 | 2 | 3 => simp [bne, beq_eq_decide]
  | i + 4 => simp

theorem State.statusWord_ovf (s : State) : s.statusWord.getLsbD 0 = s.ovf := s.statusWord_getLsbD 0

theorem State.statusWord_ill (s : State) : s.statusWord.getLsbD 1 = s.ill := s.statusWord_getLsbD 1

theorem State.statusWord_lastv (s : State) : s.statusWord.getLsbD 2 = s.lastv := s.statusWord_getLsbD 2

theorem FlagsKept.statusWord {s t : State} (h : FlagsKept s t) :
    ∀ i < 3, s.statusWord.getLsbD i = true → t.statusWord.getLsbD i = true
  | 0, _ => by rw [s.statusWord_ovf, t.statusWord_ovf]; exact h.ovf
  | 1, _ => by rw [s.statusWord_ill, t.statusWord_ill]; exact h.ill
  | 2, _ => by rw [s.statusWord_lastv, t.statusWord_lastv]; exact h.lastv

theorem statusWord_of_atResetValues {s : State} (h : AtResetValues s) : s.statusWord = 0#32 :=
  regWord_of_atResetValues (n := .status) h (by decide) (by decide)

/-- Settles O21: `STATUS` is the three flags and `INFRAME`; the setters set their flag, the resets clear all, and every
other step keeps the flags. -/
theorem statusWordBits : Obligations.StatusWordBits := by
  intro s
  simp only [State.readReg_status]
  refine ⟨s.statusWord_getLsbD, ?overflow, fun w => ?illegal, fun len => ?check, ?srst, fun hr => ?pin,
    fun _ ht hreset hsrst => (flagsKept_step ht hreset hsrst).statusWord⟩
  case overflow => exact (s.raise .bufferOverflow).statusWord_ovf
  case illegal => exact (s.raise (.illegalCommand w)).statusWord_ill
  case check => rw [State.statusWord_lastv, State.checkCandidate_lastv]
  case srst => exact ⟨s.clear, exec_srst s, statusWord_of_atResetValues (atResetValues_clear s)⟩
  case pin =>
    obtain ⟨t, hstep, ht⟩ := step_of_resetNext hr
    exact ⟨t, hstep, statusWord_of_atResetValues ht⟩

end Sys2Proof.Machine
end

section
/-! SUPPORT. The decoder against the encoder and the opcode map (30_encoding.md R93, R94), the census of the command
words, the pseudo-instructions' words (R102), and the proofs of the statements about them. -/

namespace Sys2Proof

/-! ### Decoder and encoder -/

@[simp] theorem decode_encode (i : Instr) : decode (encode i) = .ok i := by
  cases i <;> simp [decode, decodeN, Instr.opcode, Instr.argument]

theorem decodeN_eq_ok {i j : Instr} {w : Cmd} (h : decodeN i w = .ok j) : w.arg = 0#8 ∧ i = j := by
  unfold decodeN at h
  split at h
  · exact ⟨‹_›, Except.ok.inj h⟩
  · cases h

theorem encode_eq_of_fields {i : Instr} {w : Cmd} (hop : w.op.toNat = i.opcode.toNat) (harg : w.arg = i.argument) :
    encode i = w := by
  rw [← w.op_append_arg, BitVec.eq_of_toNat_eq hop, harg, encode]

theorem encode_of_decode {w : Cmd} {i : Instr} (h : decode w = .ok i) : encode i = w := by
  unfold decode at h
  split at h
  case h_2 hop | h_5 hop | h_6 hop => cases h; exact encode_eq_of_fields hop rfl
  case h_8 => cases h
  all_goals
    rename_i hop
    obtain ⟨harg, rfl⟩ := decodeN_eq_ok h
    exact encode_eq_of_fields hop harg

/-- The decoder and the encoder are inverse to each other. -/
theorem decode_eq_ok_iff {w : Cmd} {i : Instr} : decode w = .ok i ↔ encode i = w :=
  ⟨encode_of_decode, fun h => h ▸ decode_encode i⟩

theorem encode_injective : Function.Injective encode := fun i _ h =>
  Except.ok.inj ((decode_encode i).symm.trans (decode_eq_ok_iff.mpr h.symm))

theorem argument_of_decode {w : Cmd} {i : Instr} (h : decode w = .ok i) : i.argument = w.arg := by
  rw [← encode_of_decode h, encode_arg]

theorem decode_error_iff {w : Cmd} : (∃ e, decode w = .error e) ↔ ¬ ∃ i, decode w = .ok i := by
  cases decode w <;> simp

/-! ### The masks and the rows of the opcode map (R93) -/

theorem and_fullMask (w : Cmd) : w &&& 0xFFF#12 = w := BitVec.and_allOnes

/-- The mask of formats B and R selects the words with one `op`, whatever their `arg`. -/
theorem exists_append_eq_iff (op : BitVec 4) (w : Cmd) :
    (∃ arg : BitVec 8, op ++ arg = w) ↔ w &&& 0xF00#12 = op ++ 0#8 := by
  constructor
  · rintro ⟨arg, rfl⟩
    exact Laws.RowMatch.op_mask op arg
  · intro h
    rw [← w.op_append_arg, Laws.RowMatch.op_mask] at h
    have hop : w.op = op := by simpa using congrArg Cmd.op h
    exact ⟨w.arg, hop ▸ w.op_append_arg⟩

/-- The full mask of format N selects one word. -/
theorem decode_eq_ok_iff_fullMask {w : Cmd} {i : Instr} : decode w = .ok i ↔ w &&& 0xFFF#12 = encode i := by
  rw [decode_eq_ok_iff, and_fullMask, eq_comm]

/-- The mask of formats B and R selects the words of one command, built by `f` with opcode `op`. -/
theorem exists_decode_eq_ok_iff_opMask {w : Cmd} {f : BitVec 8 → Instr} {op : BitVec 4}
    (hf : ∀ b, encode (f b) = op ++ b) : (∃ b, decode w = .ok (f b)) ↔ w &&& 0xF00#12 = op ++ 0#8 := by
  simp only [decode_eq_ok_iff, hf, exists_append_eq_iff]

theorem exists_decode_push_iff {w : Cmd} : (∃ b, decode w = .ok (.push b)) ↔ w &&& 0xF00#12 = 0x100#12 :=
  exists_decode_eq_ok_iff_opMask (op := 0x1#4) fun _ => rfl

theorem exists_decode_crcUpd_iff {w : Cmd} : (∃ b, decode w = .ok (.crcUpd b)) ↔ w &&& 0xF00#12 = 0x500#12 :=
  exists_decode_eq_ok_iff_opMask (op := 0x5#4) fun _ => rfl

theorem exists_decode_rdreg_iff {w : Cmd} : (∃ r, decode w = .ok (.rdreg r)) ↔ w &&& 0xF00#12 = 0x700#12 :=
  exists_decode_eq_ok_iff_opMask (op := 0x7#4) fun _ => rfl

theorem rowMatch_statement : ∀ i : Instr, Laws.RowMatch.Statement i
  | .nop => Laws.RowMatch.nop
  | .push b => Laws.RowMatch.push b
  | .flush => Laws.RowMatch.flush
  | .crcClr => Laws.RowMatch.crcClr
  | .crcUpd b => Laws.RowMatch.crcUpd b
  | .rdreg r => Laws.RowMatch.rdreg r
  | .srst => Laws.RowMatch.srst

theorem matches_iff (r : OpcodeRow) (w : Cmd) : r.Matches w = true ↔ w &&& r.mask = r.matchBits :=
  decide_eq_true_iff

/-- A word that matches a command's row decodes to a command of that row. -/
theorem exists_decode_of_matches {i : Instr} {w : Cmd} (h : i.row.Matches w = true) :
    ∃ j : Instr, j.row = i.row ∧ decode w = .ok j := by
  rw [matches_iff] at h
  cases i with
  | nop | flush | crcClr | srst => exact ⟨_, rfl, decode_eq_ok_iff_fullMask.mpr h⟩
  | push b =>
    obtain ⟨c, hc⟩ := exists_decode_push_iff.mpr h
    exact ⟨.push c, rfl, hc⟩
  | crcUpd b =>
    obtain ⟨c, hc⟩ := exists_decode_crcUpd_iff.mpr h
    exact ⟨.crcUpd c, rfl, hc⟩
  | rdreg r =>
    obtain ⟨c, hc⟩ := exists_decode_rdreg_iff.mpr h
    exact ⟨.rdreg c, rfl, hc⟩

theorem exists_row_of_mem {r : OpcodeRow} (h : r ∈ opcodeMap) : ∃ i : Instr, i.row = r := by
  simp only [opcodeMap, List.mem_cons, List.not_mem_nil, or_false] at h
  rcases h with rfl | rfl | rfl | rfl | rfl | rfl | rfl <;> exact ⟨_, rfl⟩

/-- A row of the map matches a word exactly when the word decodes to a command of that row. -/
theorem matches_iff_decode {r : OpcodeRow} (hr : r ∈ opcodeMap) {w : Cmd} :
    r.Matches w = true ↔ ∃ i : Instr, i.row = r ∧ decode w = .ok i := by
  constructor
  · obtain ⟨i, rfl⟩ := exists_row_of_mem hr
    exact exists_decode_of_matches
  · rintro ⟨i, rfl, hi⟩
    exact encode_of_decode hi ▸ (rowMatch_statement i).1

theorem opcodeMap_disjoint {w : Cmd} {r₁ r₂ : OpcodeRow} (h₁ : r₁ ∈ opcodeMap) (h₂ : r₂ ∈ opcodeMap)
    (hw₁ : r₁.Matches w = true) (hw₂ : r₂.Matches w = true) : r₁ = r₂ := by
  obtain ⟨i, rfl, hi⟩ := (matches_iff_decode h₁).mp hw₁
  obtain ⟨j, rfl, hj⟩ := (matches_iff_decode h₂).mp hw₂
  rw [Except.ok.inj (hi.symm.trans hj)]

theorem decode_error_iff_no_row {w : Cmd} :
    (∃ e, decode w = .error e) ↔ ∀ r ∈ opcodeMap, r.Matches w = false := by
  rw [decode_error_iff]
  constructor
  · intro h r hr
    rw [Bool.eq_false_iff, Ne, matches_iff_decode hr]
    exact fun ⟨i, _, hi⟩ => h ⟨i, hi⟩
  · rintro h ⟨i, hi⟩
    have hrow := (rowMatch_statement i).2
    exact Bool.eq_false_iff.mp (h _ hrow) ((matches_iff_decode hrow).mpr ⟨i, rfl, hi⟩)

/-! ### The census of the command words (R93) -/

/-- Every operand of formats B and R, once. -/
def operands : List (BitVec 8) := (List.finRange 256).map BitVec.ofFin

theorem mem_operands (b : BitVec 8) : b ∈ operands :=
  List.mem_map.mpr ⟨b.toFin, List.mem_finRange _, rfl⟩

theorem nodup_operands : operands.Nodup :=
  (List.nodup_finRange 256).map fun _ _ => BitVec.ofFin.inj

/-- Every command, once: four without operand and three with one. -/
def commands : List Instr :=
  [Instr.nop, Instr.flush, Instr.crcClr, Instr.srst] ++ operands.map Instr.push ++ operands.map Instr.crcUpd ++
    operands.map Instr.rdreg

theorem mem_commands (i : Instr) : i ∈ commands := by
  cases i <;> simp [commands, mem_operands]

theorem nodup_commands : commands.Nodup := by
  have hpush : (operands.map Instr.push).Nodup := nodup_operands.map fun _ _ => Instr.push.inj
  have hupd : (operands.map Instr.crcUpd).Nodup := nodup_operands.map fun _ _ => Instr.crcUpd.inj
  have hrdreg : (operands.map Instr.rdreg).Nodup := nodup_operands.map fun _ _ => Instr.rdreg.inj
  simp +contextual [commands, List.nodup_append', List.disjoint_left, hpush, hupd, hrdreg]

theorem commands_length : commands.length = 4 + 3 * 256 := by
  simp [commands, operands]

theorem decodeTableWord_isSome_iff {k : Nat} (hk : k < 4096) :
    (decodeTableWord 16 k).isSome = true ↔ ∃ i, (encode i).toNat = k := by
  have hmod : k % 2 ^ 16 = k := Nat.mod_eq_of_lt (by omega)
  have hword (i : Instr) : encode i = BitVec.ofNat 12 k ↔ (encode i).toNat = k := by
    rw [← BitVec.toNat_inj, BitVec.toNat_ofNat, Nat.mod_eq_of_lt (by omega)]
  rw [decodeTableWord, hmod, if_pos (show k < 2 ^ 12 from hk)]
  simp only [← hword, ← decode_eq_ok_iff]
  cases decode (BitVec.ofNat 12 k) <;> simp

/-- The command words are the encodings of the commands, one each. -/
theorem count_command_words :
    ((List.range 4096).countP fun k => (decodeTableWord 16 k).isSome) = commands.length := by
  have hinj : Function.Injective fun i => (encode i).toNat := fun _ _ h =>
    encode_injective (BitVec.eq_of_toNat_eq h)
  have hperm : ((List.range 4096).filter fun k => (decodeTableWord 16 k).isSome).Perm
      (commands.map fun i => (encode i).toNat) := by
    rw [List.perm_ext_iff_of_nodup (List.nodup_range.filter _) (nodup_commands.map hinj)]
    intro k
    simp only [List.mem_filter, List.mem_range, List.mem_map, mem_commands, true_and]
    constructor
    · exact fun ⟨hk, hsome⟩ => (decodeTableWord_isSome_iff hk).mp hsome
    · rintro ⟨i, rfl⟩
      exact ⟨(encode i).isLt, (decodeTableWord_isSome_iff (encode i).isLt).mpr ⟨i, rfl⟩⟩
  rw [List.countP_eq_length_filter, hperm.length_eq, List.length_map]

/-- Settles O5: a row's mask selects the encodings of its commands, of which there are `4 + 3 * 256`. -/
theorem rowsOfTheOpcodeMapPartitionTheWords : Obligations.RowsOfTheOpcodeMapPartitionTheWords := by
  refine ⟨fun w => ⟨decode_eq_ok_iff_fullMask, exists_decode_push_iff, decode_eq_ok_iff_fullMask,
    decode_eq_ok_iff_fullMask, exists_decode_crcUpd_iff, exists_decode_rdreg_iff, decode_eq_ok_iff_fullMask, ?operand,
    decode_error_iff_no_row⟩, fun _ _ _ => opcodeMap_disjoint, count_command_words.trans commands_length⟩
  rintro a (h | h | h) <;> exact argument_of_decode h

/-! ### The reserved encodings (R94) -/

/-- Which fields make a command: an `op` with an operand, or an `op` without one and a zero `arg`. -/
theorem exists_decode_append_iff (op : BitVec 4) (arg : BitVec 8) :
    (∃ i, decode (op ++ arg) = .ok i) ↔
      op ∈ [0x1#4, 0x5#4, 0x7#4] ∨ op ∈ [0x0#4, 0x2#4, 0x4#4, 0xF#4] ∧ arg = 0#8 := by
  constructor
  · rintro ⟨i, hi⟩
    have hw := encode_of_decode hi
    have hop : i.opcode = op := by simpa using congrArg Cmd.op hw
    have harg : i.argument = arg := by simpa using congrArg Cmd.arg hw
    subst hop harg
    cases i <;> simp [Instr.opcode, Instr.argument]
  · simp only [List.mem_cons, List.not_mem_nil, or_false]
    rintro ((rfl | rfl | rfl) | ⟨rfl | rfl | rfl | rfl, rfl⟩)
    · exact ⟨_, decode_encode (.push arg)⟩
    · exact ⟨_, decode_encode (.crcUpd arg)⟩
    · exact ⟨_, decode_encode (.rdreg arg)⟩
    · exact ⟨_, decode_encode .nop⟩
    · exact ⟨_, decode_encode .flush⟩
    · exact ⟨_, decode_encode .crcClr⟩
    · exact ⟨_, decode_encode .srst⟩

/-- The `op` values that R94 lists with any `arg` are those of no row. -/
theorem mem_reservedOps_iff : ∀ op : BitVec 4,
    op ∈ [0x3#4, 0x6#4, 0x8#4, 0x9#4, 0xA#4, 0xB#4, 0xC#4, 0xD#4, 0xE#4] ↔
      op ∉ [0x1#4, 0x5#4, 0x7#4] ∧ op ∉ [0x0#4, 0x2#4, 0x4#4, 0xF#4] := by decide

theorem not_mem_operandOps : ∀ op : BitVec 4, op ∈ [0x0#4, 0x2#4, 0x4#4, 0xF#4] → op ∉ [0x1#4, 0x5#4, 0x7#4] := by
  decide

theorem decode_append_error_iff (op : BitVec 4) (arg : BitVec 8) :
    (∃ e, decode (op ++ arg) = .error e) ↔
      op ∈ [0x3#4, 0x6#4, 0x8#4, 0x9#4, 0xA#4, 0xB#4, 0xC#4, 0xD#4, 0xE#4] ∨
      op ∈ [0x0#4, 0x2#4, 0x4#4, 0xF#4] ∧ arg ≠ 0#8 := by
  have hdisjoint := not_mem_operandOps op
  rw [decode_error_iff, exists_decode_append_iff, mem_reservedOps_iff]
  tauto

namespace Machine

/-- Settles O46: the words that are no command's, and the effect of the IllegalCommand fault. -/
theorem reservedEncodingIsRecorded : Obligations.ReservedEncodingIsRecorded := by
  refine fun s op arg => ⟨decode_append_error_iff op arg, fun ⟨_, he⟩ => ⟨_, runWord_error he s, ?_⟩⟩
  rw [State.raise_illegalCommand]
  rfl

/-! ### The pseudo-instructions (R102) -/

/-- `op` above a byte written as a number. -/
theorem append_ofNat (op : BitVec 4) {b : Nat} (hb : byteInRange b = true) :
    (op ++ BitVec.ofNat 8 b : BitVec 12) = BitVec.ofNat 12 (op.toNat * 2 ^ 8 + b) := by
  have hlt : b < 2 ^ 8 := Nat.lt_succ_iff.mpr (of_decide_eq_true hb)
  apply BitVec.eq_of_toNat_eq
  rw [BitVec.toNat_append, BitVec.toNat_ofNat, BitVec.toNat_ofNat, Nat.mod_eq_of_lt hlt,
    ← Nat.shiftLeft_add_eq_or_of_lt hlt, Nat.shiftLeft_eq, Nat.mod_eq_of_lt]
  omega

theorem encode_push_ofNat {b : Nat} (hb : byteInRange b = true) :
    encode (.push (BitVec.ofNat 8 b)) = BitVec.ofNat 12 (0x100 + b) :=
  append_ofNat 0x1#4 hb

theorem encode_crcUpd_ofNat {b : Nat} (hb : byteInRange b = true) :
    encode (.crcUpd (BitVec.ofNat 8 b)) = BitVec.ofNat 12 (0x500 + b) :=
  append_ofNat 0x5#4 hb

/-- One command for each byte, built by `f` and encoded by `g`. -/
theorem map_encode_asmBytes {f : Byte → Instr} {g : Nat → Cmd}
    (hfg : ∀ {b}, byteInRange b = true → encode (f (BitVec.ofNat 8 b)) = g b) {bs : List Nat}
    (hbs : bs.all byteInRange = true) : ((asmBytes bs).map f).map encode = bs.map g := by
  simp only [asmBytes, List.map_map]
  exact List.map_congr_left fun b hb => hfg (List.all_eq_true.mp hbs b hb)

theorem assemble_of_wellFormed {t : AsmStmt} (h : t.WellFormed = true) : assemble t = some (asmWords t) :=
  if_pos h

/-- Settles O60: each statement is the words of its expansion, byte by byte. -/
theorem pseudoInstructionsExpand : Obligations.PseudoInstructionsExpand := by
  refine ⟨rfl, fun bs hbs => ?pushs, fun bs hbs => ?crc24q⟩
  case pushs =>
    rw [assemble_of_wellFormed (t := .pushs bs) hbs, asmWords, expandPushs, map_encode_asmBytes encode_push_ofNat hbs]
  case crc24q =>
    rw [assemble_of_wellFormed (t := .crc24q bs) hbs, asmWords, expandCrc24q, List.map_cons, List.map_append,
      map_encode_asmBytes encode_crcUpd_ofNat hbs]
    rfl

end Machine

end Sys2Proof
end

section
/-! SUPPORT. The CRC engine against the loop on natural numbers (40_crc_engine.md R120), the run of a list of commands,
and the proofs of the statements about the commands CRC.CLR and CRC.UPD (R124 to R126). -/

namespace Sys2Proof.Machine

open Sys2Proof.Safety

/-! ### The eight steps of the byte update (R120) -/

theorem lt_two_pow_of_testBit_eq_false {x n : Nat} (hx : x < 2 ^ (n + 1)) (hbit : x.testBit n = false) : x < 2 ^ n := by
  refine Nat.lt_pow_two_of_testBit x fun i hi => ?_
  rcases hi.eq_or_lt with rfl | hlt
  · exact hbit
  · exact Nat.testBit_lt_two_pow (hx.trans_le (Nat.pow_le_pow_right two_pos hlt))

/-- A step brings no bit above bit 23: the generator has bit 24 and clears the one the shift has brought there. -/
theorem crcLoopStep_lt {t : Nat} (ht : t < 2 ^ 24) : crcLoopStep t < 2 ^ 24 := by
  have hshift : t <<< 1 < 2 ^ 25 := by rw [Nat.shiftLeft_eq]; omega
  unfold crcLoopStep
  split
  case isTrue hbit =>
    have hclear : (t <<< 1 ^^^ 0x1864CFB).testBit 24 = false := by
      rw [Nat.testBit_xor, hbit]
      decide
    exact lt_two_pow_of_testBit_eq_false (Nat.xor_lt_two_pow hshift (by decide)) hclear
  case isFalse hbit => exact lt_two_pow_of_testBit_eq_false hshift (Bool.eq_false_iff.mpr hbit)

/-- In 25 bits the shift of a 24-bit value loses nothing. -/
theorem crcShift_toNat {t : BitVec 25} (ht : t.toNat < 2 ^ 24) : (crcShift t).toNat = crcLoopStep t.toNat := by
  have hshift : (t <<< 1).toNat = t.toNat <<< 1 := by
    rw [BitVec.toNat_shiftLeft, Nat.mod_eq_of_lt]
    rw [Nat.shiftLeft_eq]
    omega
  simp only [crcShift, crcLoopStep, ← BitVec.testBit_toNat, hshift]
  split
  · rw [BitVec.toNat_xor, hshift]
    rfl
  · exact hshift

/-- Any number of the model's steps is as many of the loop's, and the value stays below `2^24`. -/
theorem crcShifts_toNat (k : Nat) {t : BitVec 25} (ht : t.toNat < 2 ^ 24) :
    (crcShifts k t).toNat = crcLoopStep^[k] t.toNat ∧ crcLoopStep^[k] t.toNat < 2 ^ 24 := by
  induction k generalizing t with
  | zero => exact ⟨rfl, ht⟩
  | succ k ih =>
    have hstep := crcShift_toNat ht
    have hlt : (crcShift t).toNat < 2 ^ 24 := hstep ▸ crcLoopStep_lt ht
    rw [crcShifts, Function.iterate_succ_apply, ← hstep]
    exact ih hlt

/-- The value the loop starts from: the byte XORed into bits 23:16. -/
theorem crcLoad_toNat (a : Crc24) (b : Byte) :
    ((a ^^^ (b.setWidth 24 <<< 16)).setWidth 25).toNat = a.toNat ^^^ (b.toNat <<< 16) := by
  have hbyte : b.toNat <<< 16 < 2 ^ 24 := by
    rw [Nat.shiftLeft_eq]
    omega
  rw [BitVec.toNat_setWidth_of_le (by decide), BitVec.toNat_xor, BitVec.toNat_shiftLeft,
    BitVec.toNat_setWidth_of_le (by decide), Nat.mod_eq_of_lt hbyte]

theorem crcLoad_lt (a : Crc24) (b : Byte) : ((a ^^^ (b.setWidth 24 <<< 16)).setWidth 25).toNat < 2 ^ 24 := by
  rw [BitVec.toNat_setWidth_of_le (by decide)]
  exact BitVec.isLt _

/-- Settles O6: the model's 25-bit steps are the loop's, and its narrowing to 24 bits is the mask. -/
theorem crcStepIsTheRulesLoop : Obligations.CrcStepIsTheRulesLoop := by
  intro a b
  obtain ⟨hloop, -⟩ := crcShifts_toNat 8 (crcLoad_lt a b)
  rw [crcStep, BitVec.toNat_setWidth, hloop, crcLoad_toNat]
  exact (Nat.and_two_pow_sub_one_eq_mod _ 24).symm

/-! ### The commands (R124, R125) -/

/-- Settles O14: the meaning of CRC.CLR is the update of `ACC` alone. -/
theorem crcClrZeroesTheAccumulator : Obligations.CrcClrZeroesTheAccumulator := exec_crcClr

/-- Settles O15: the meaning of CRC.UPD is the update of `ACC` alone. -/
theorem crcUpdFoldsInTheByte : Obligations.CrcUpdFoldsInTheByte := fun s b => exec_crcUpd b s

/-! ### The CRC of no bytes (R126) -/

/-- A list of commands whose first answers a next state runs on from there. -/
theorem execAll_cons_of_next {i : Instr} {s t : State} (h : exec i s = .next t) (is : List Instr) :
    execAll (i :: is) s = execAll is t := by
  rw [execAll, h]

theorem State.readReg_crcacc (s : State) : s.readReg 0x07#8 = s.acc.setWidth 32 := s.readReg_regNumber .crcacc

/-- Settles O8: RDREG CRCACC responds the accumulator, which CRC.CLR has made 0. -/
theorem crcOfNoBytesIsZero : Obligations.CrcOfNoBytesIsZero := by
  refine ⟨crcFrom_nil _, fun s => ?_⟩
  have hrun := (execAll_cons_of_next (exec_crcClr s) expandCrcRd).trans (execAll_cons_of_next (exec_rdreg 0x07#8 _) [])
  refine ⟨_, hrun, ?_⟩
  rw [State.respond_out, State.readReg_crcacc, BitVec.setWidth_zero]

end Sys2Proof.Machine
end

section
/-! SUPPORT. The framer's reads of a buffer that is written out byte by byte (41_framer.md R146, R148, R150), one PUSH
by what it meets, and the proofs of the statements about PUSH and FLUSH (R141, R142, R149 to R152, R154). -/

namespace Sys2Proof.Machine

open Sys2Proof.Safety

/-! ### FLUSH (R154) -/

/-- Settles O25: an empty buffer lists no cell. -/
theorem flushEmptiesTheBuffer : Obligations.FlushEmptiesTheBuffer := exec_flush

/-! ### One byte of the buffer, after an append (R142) -/

theorem State.append_byteAt_len (s : State) (b : Byte) : (s.append b).byteAt s.len = some b := by
  rw [State.byteAt, State.append_bytes, ← s.bytes_length, List.getElem?_concat_length]

theorem State.byteAt_eq_none_of_le {s : State} {a : Nat} (h : s.len ≤ a) : s.byteAt a = none :=
  List.getElem?_eq_none (by rwa [State.bytes_length])

theorem State.append_byteAt_of_ne {s : State} {a : Nat} (h : a ≠ s.len) (b : Byte) :
    (s.append b).byteAt a = s.byteAt a := by
  rcases Nat.lt_or_gt_of_ne h with hlt | hgt
  · rw [State.byteAt, State.append_bytes, List.getElem?_append_left (by rwa [State.bytes_length]), State.byteAt]
  · rw [State.byteAt_eq_none_of_le hgt.le, State.byteAt_eq_none_of_le (by rw [State.append_len]; exact hgt)]

/-! ### The front of the buffer -/

theorem State.byteAt_zero_eq_some_iff {s : State} {b : Byte} :
    s.byteAt 0 = some b ↔ ∃ rest, s.bytes = b :: rest := by
  rw [State.byteAt]
  cases s.bytes <;> simp

/-- What R155 says of a buffer that is not empty: it begins with the preamble. -/
theorem byteAt_zero_of_framerInv {s : State} (h : FramerInv s) (hne : s.len ≠ 0) :
    s.byteAt 0 = some Config.preamble := by
  rcases h with h | ⟨h, -⟩ | ⟨b1, b2, rest, h, -⟩
  · exact absurd h hne
  · exact h
  · exact State.byteAt_zero_eq_some_iff.mpr ⟨_, h⟩

/-- After an append the preamble is in front when it was before, or when it is the first byte. -/
theorem append_byteAt_zero_of_framerInv {s : State} {b : Byte} (h : FramerInv s)
    (hb : s.len = 0 → b = Config.preamble) : (s.append b).byteAt 0 = some Config.preamble := by
  by_cases h0 : s.len = 0
  · rw [← hb h0, ← h0, State.append_byteAt_len]
  · rw [State.append_byteAt_of_ne (Ne.symm h0), byteAt_zero_of_framerInv h h0]

/-- The preamble search removes nothing from a buffer that begins with the preamble (R144). -/
theorem State.step1_eq_self {s : State} (hwf : s.buf.wf = true) (h : s.byteAt 0 = some Config.preamble) :
    s.step1 = s := by
  obtain ⟨rest, hrest⟩ := State.byteAt_zero_eq_some_iff.mp h
  rw [State.step1_of_preamble hrest, ← hrest, State.setBytes_self hwf]

/-! ### `Extract` that waits, and that consumes the whole buffer -/

theorem frameLength_eq (len : Len10) : frameLength len = len.toNat + 6 := by
  simp only [frameLength, Config.hdrBytes, Config.crcBytes]
  omega

theorem State.extract_of_waits {s : State} (h : Waits s.step1) : s.extract = s.step1 :=
  State.extractLoop_waits _ h

/-- The passes over an empty buffer wait, however many there are. -/
theorem State.extractLoop_emptyBuffer (s : State) : ∀ k, State.extractLoop k s.emptyBuffer = s.emptyBuffer
  | 0 => rfl
  | k + 1 => by
    have hstep : s.emptyBuffer.step1 = s.emptyBuffer := State.step1_of_nil s.emptyBuffer_bytes
    have hwaits : Waits s.emptyBuffer.step1 := by
      rw [hstep, Waits, State.emptyBuffer_len]
      exact .inl (by decide)
    rw [State.extractLoop_waits k hwaits, hstep]

theorem State.dropFront_len_self (s : State) : s.dropFront s.len = s.emptyBuffer := by
  rw [State.dropFront, List.drop_of_length_le s.bytes_length.le, State.emptyBuffer]

theorem State.checkCandidate_len (s : State) (len : Len10) : (s.checkCandidate len).len = s.len := by
  rw [State.len, State.checkCandidate_buf, State.len]

/-- A buffer that is one frame is checked and emptied, and the second pass waits (R143, R153). -/
theorem State.extract_of_complete {s : State} (hwf : s.buf.wf = true) (hhead : s.byteAt 0 = some Config.preamble)
    (hlen : s.len = frameLength s.payloadLength) : s.extract = (s.checkCandidate s.payloadLength).emptyBuffer := by
  have hstep : s.step1 = s := State.step1_eq_self hwf hhead
  have hsix : 6 ≤ s.len := by rw [hlen, frameLength_eq]; omega
  have hchecks : ¬ Waits s.step1 := by rw [hstep, Waits]; omega
  have hdrop := (s.checkCandidate s.payloadLength).dropFront_len_self
  rw [State.checkCandidate_len, hlen] at hdrop
  rw [State.extract, State.extractLoop_checks _ hchecks, hstep, hdrop, State.extractLoop_emptyBuffer]

/-- The first byte of a buffer stays when it is the preamble and is dropped when not (R144). -/
theorem State.extract_append_of_nil {s : State} (h : s.bytes = []) (b : Byte) :
    (s.append b).extract = s.setBytes (if b = Config.preamble then [b] else []) := by
  have hstep : (s.append b).step1 = s.setBytes (if b = Config.preamble then [b] else []) := by
    rw [State.step1, State.append_bytes, h, State.append, State.setBytes_setBytes]
    by_cases hb : b = Config.preamble <;> simp [hb]
  rw [State.extract_of_waits, hstep]
  left
  rw [hstep, State.setBytes_len]
  split <;> simp

/-! ### One PUSH, by what it meets (R140) -/

theorem exec_push_of_not_full {s : State} (h : s.len ≠ s.cfg.bufCap) (b : Byte) :
    exec (.push b) s = .next (s.append b).extract := by
  rw [exec_push, State.overflowCheck, if_neg h]

theorem exec_push_of_full {s : State} (h : s.len = s.cfg.bufCap) (b : Byte) :
    exec (.push b) s = .next ((s.raise .bufferOverflow).setBytes (if b = Config.preamble then [b] else [])) := by
  have hnil : (s.raise .bufferOverflow).bytes = [] := rfl
  rw [exec_push, State.overflowCheck, if_pos h, State.extract_append_of_nil hnil]

/-- PUSH of a byte that is kept and completes no frame appends it and does nothing else. -/
theorem exec_push_of_waits {s : State} {b : Byte} (hfull : s.len ≠ s.cfg.bufCap)
    (hhead : (s.append b).byteAt 0 = some Config.preamble) (hw : Waits (s.append b)) :
    exec (.push b) s = .next (s.append b) := by
  have hstep : (s.append b).step1 = s.append b := State.step1_eq_self (s.append_wf b) hhead
  rw [exec_push_of_not_full hfull, State.extract_of_waits (by rwa [hstep]), hstep]

theorem bufCap_ge_six {c : Config} (h : c.WellFormed = true) : 6 ≤ c.bufCap := by
  simp only [Config.WellFormed, Config.bufCapLegal, Bool.and_eq_true, decide_eq_true_eq] at h
  obtain ⟨⟨hcap, -⟩, -⟩ := h
  exact hcap

/-- After the overflow check there is room for a byte (R141, R142). -/
theorem overflowCheck_len_lt {s : State} (h : Inv s) : s.overflowCheck.len < s.cfg.bufCap := by
  obtain ⟨hcfg, -, -, ⟨hle, -⟩, -⟩ := h
  rcases s.overflowCheck_cases with ⟨-, hcheck⟩ | ⟨hne, hcheck⟩ <;> rw [hcheck]
  · have hempty : (s.raise .bufferOverflow).len = 0 := rfl
    have hcap := bufCap_ge_six hcfg
    omega
  · omega

/-- Settles O28: an append writes at `LEN` alone, and a PUSH that waits is an append. -/
theorem pushStoresAtLen : Obligations.PushStoresAtLen := by
  intro s b hinv
  refine ⟨⟨overflowCheck_len_lt hinv, State.append_len _ b, State.append_byteAt_len _ b,
    fun a ha => State.append_byteAt_of_ne ha b⟩, fun hfull hw hb => ?_⟩
  obtain ⟨-, -, hframer, -⟩ := hinv
  have hhead := append_byteAt_zero_of_framerInv hframer hb
  exact ⟨_, exec_push_of_waits hfull hhead hw, s.append_len b, s.append_byteAt_len b,
    fun a ha => State.append_byteAt_of_ne ha b⟩

/-- Settles O31: the emptied buffer takes the byte like any first byte. -/
theorem pushOnAFullBufferOverflows : Obligations.PushOnAFullBufferOverflows := by
  intro s b hfull
  refine ⟨_, zext32 s.cfg.bufCap, exec_push_of_full hfull b, zext32_toNat, ?_⟩
  by_cases hb : b = 0xD3#8
  · rw [if_pos hb, if_pos hb]
    rfl
  · rw [if_neg hb, if_neg hb]
    rfl

/-! ### Fields of big-endian reads -/

/-- A field of a number that a word holds is a field of the word (00_scope.md R7). -/
theorem bitField_toNat {w : Nat} (x : BitVec w) (hi lo : Nat) : bitField x.toNat hi lo = x.extractLsb hi lo := rfl

theorem be_pair (x y : Byte) : be [x, y] = (x ++ y).toNat := by
  rw [BitVec.toNat_append, be, List.foldl, List.foldl, List.foldl, Nat.zero_shiftLeft, Nat.zero_or]

theorem be_triple (x y z : Byte) : be [x, y, z] = (x ++ y ++ z).toNat := by
  rw [BitVec.toNat_append, ← be_pair]
  exact be_append_one [x, y] z

/-- A field that spans two words is the low bits of the one above the high bits of the other. -/
theorem extractLsb'_append_spanning {m n k start j : Nat} (x : BitVec m) (y : BitVec n) (h : n = start + j) :
    (x ++ y).extractLsb' start (k + j) = x.extractLsb' 0 k ++ y.extractLsb' start j := by
  ext i hi
  simp only [BitVec.getElem_extractLsb', BitVec.getLsbD_append, BitVec.getElem_append]
  split
  · rw [dif_pos (by omega)]
  · rw [dif_neg (by omega)]
    congr 1
    omega

/-! ### The slices of a buffer and the reads of its fields -/

theorem State.slice_of_bytes {s : State} {xs ys zs : List Byte} (h : s.bytes = xs ++ (ys ++ zs)) :
    s.slice xs.length ys.length = ys := by
  rw [State.slice, h, List.drop_left, List.take_left]

theorem State.payloadLength_of_bytes {s : State} {b0 b1 b2 : Byte} {rest : List Byte}
    (h : s.bytes = b0 :: b1 :: b2 :: rest) : s.payloadLength = b1.extractLsb' 0 2 ++ b2 := by
  have hslice : s.slice 1 2 = [b1, b2] := State.slice_of_bytes (xs := [b0]) (ys := [b1, b2]) h
  rw [State.payloadLength, State.memRead, hslice, be_pair, bitField_toNat]
  exact (extractLsb'_append_spanning (k := 2) (j := 8) b1 b2 rfl).trans (by rw [BitVec.extractLsb'_eq_self])

theorem State.messageType_of_bytes {s : State} {b0 b1 b2 p0 p1 : Byte} {rest : List Byte}
    (h : s.bytes = b0 :: b1 :: b2 :: p0 :: p1 :: rest) : s.messageType = p0 ++ p1.extractLsb' 4 4 := by
  have hslice : s.slice 3 2 = [p0, p1] := State.slice_of_bytes (xs := [b0, b1, b2]) (ys := [p0, p1]) h
  rw [State.messageType, State.memRead, hslice, be_pair, bitField_toNat]
  exact (extractLsb'_append_spanning (k := 8) (j := 4) p0 p1 rfl).trans (by rw [BitVec.extractLsb'_eq_self])

theorem State.rxCrc_of_slice {s : State} {n : Nat} {x y z : Byte} (h : s.slice (n - 3) 3 = [x, y, z]) :
    s.rxCrc n = x ++ y ++ z := by
  rw [State.rxCrc, State.memRead, h, be_triple, bitField_toNat]
  exact BitVec.extractLsb'_eq_self

/-- Settles O32: the two low bits of the first header byte above the second one. -/
theorem payloadLengthOfTheHeader : Obligations.PayloadLengthOfTheHeader := by
  intro s b0 b1 b2 rest h
  have hlow : (b1.extractLsb' 0 2).toNat = (b1 &&& 0x03#8).toNat :=
    (Nat.and_two_pow_sub_one_eq_mod b1.toNat 2).symm
  rw [State.payloadLength_of_bytes h, BitVec.toNat_append, hlow]

/-- Settles O33: the first payload byte above the four high bits of the second one. -/
theorem messageTypeOfThePayload : Obligations.MessageTypeOfThePayload := by
  intro s b0 b1 b2 p0 p1 rest h
  have hhigh : (p1.extractLsb' 4 4).toNat = p1.toNat >>> 4 := by
    rw [BitVec.extractLsb'_toNat, Nat.shiftRight_eq_div_pow, Nat.mod_eq_of_lt]
    omega
  rw [State.messageType_of_bytes h, BitVec.toNat_append, hhigh]

/-! ### A buffer that is one frame (20_memory.md R63) -/

theorem frameBody_length (res : BitVec 6) (len : Len10) (payload : List Byte) :
    (frameBody res len payload).length = payload.length + 3 := rfl

section Frame

variable {s : State} {res : BitVec 6} {len : Len10} {payload : List Byte} {rx : Crc24}
  (hpayload : payload.length = len.toNat) (hbytes : s.bytes = frame res len payload rx)

include hbytes

theorem State.byteAt_zero_of_frame : s.byteAt 0 = some Config.preamble :=
  State.byteAt_zero_eq_some_iff.mpr ⟨_, hbytes⟩

/-- The length read back from a frame's header is the frame's, whatever the reserved bits hold (R146). -/
theorem State.payloadLength_of_frame : s.payloadLength = len := by
  rw [State.payloadLength_of_bytes hbytes]
  have hreserved : (res ++ len.extractLsb' 8 2 : Byte).extractLsb' 0 2 = len.extractLsb' 8 2 :=
    BitVec.extractLsb'_append_eq_right
  rw [hreserved]
  exact BitVec.extractLsb'_append_extractLsb' (w := 2) (len := 8)

include hpayload

theorem State.len_of_frame : s.len = frameLength len := by
  rw [← s.bytes_length, hbytes, frame, List.length_append, frameBody_length, hpayload, frameLength_eq, crcTrailer]
  rfl

theorem State.slice_payload_of_frame : s.slice 3 len.toNat = payload := by
  rw [← hpayload]
  exact State.slice_of_bytes (xs := [_, _, _]) hbytes

theorem State.calcCrc_of_frame : s.calcCrc (frameLength len) = crc24q (frameBody res len payload) := by
  have hslice := State.slice_of_bytes (xs := []) (ys := frameBody res len payload) hbytes
  rw [frameBody_length, hpayload, Nat.add_comm] at hslice
  rw [State.calcCrc, frameLength, Nat.add_sub_cancel]
  exact congrArg crc24q hslice

theorem State.rxCrc_of_frame : s.rxCrc (frameLength len) = rx := by
  have hslice : s.slice (frameLength len - 3) 3 = crcTrailer rx := by
    rw [frameLength, Nat.add_sub_cancel, Nat.add_comm, ← hpayload, ← frameBody_length res len]
    exact State.slice_of_bytes (zs := []) (by rw [List.append_nil, hbytes, frame])
  rw [State.rxCrc_of_slice hslice]
  have hhigh : (rx.extractLsb' 16 8 ++ rx.extractLsb' 8 8 : BitVec 16) = rx.extractLsb' 8 16 :=
    BitVec.extractLsb'_append_extractLsb'_eq_extractLsb' rfl
  rw [hhigh]
  exact BitVec.extractLsb'_append_extractLsb' (w := 16) (len := 8)

theorem State.typeOf_of_frame : s.typeOf len = payloadType payload := by
  rw [State.typeOf, ← hpayload]
  match payload with
  | [] | [_] => rfl
  | p0 :: p1 :: ps =>
    rw [if_pos (by simp), State.messageType_of_bytes hbytes, payloadType]

/-- The check of a frame whose trailer is its CRC (R149). -/
theorem State.checkCandidate_of_goodFrame (hrx : rx = crc24q (frameBody res len payload)) :
    s.checkCandidate len =
      ((s.writeLast len (payloadType payload).1 (payloadType payload).2 true rx rx).countMsg).emit
        (.decoded len (payloadType payload).1 (payloadType payload).2 rx payload) := by
  rw [State.checkCandidate, State.calcCrc_of_frame hpayload hbytes, State.rxCrc_of_frame hpayload hbytes, ← hrx,
    if_pos rfl, State.step6_eq, State.typeOf_of_frame hpayload hbytes, State.slice_payload_of_frame hpayload hbytes]

/-- The check of a frame whose trailer is not its CRC (R152). -/
theorem State.checkCandidate_of_badFrame (hrx : rx ≠ crc24q (frameBody res len payload)) :
    s.checkCandidate len =
      ((s.writeLast len 0#12 false false rx (crc24q (frameBody res len payload))).countCrcErr).emit
        (.crcFail len rx (crc24q (frameBody res len payload))
          ((frame res len payload rx).take (min (frameLength len) s.cfg.dumpMax))) := by
  rw [State.checkCandidate, State.calcCrc_of_frame hpayload hbytes, State.rxCrc_of_frame hpayload hbytes,
    if_neg hrx.symm, State.step7_eq, State.slice, List.drop_zero, hbytes]

end Frame

/-- PUSH of the byte that completes a frame checks the frame and empties the buffer (R143, R153). -/
theorem exec_push_of_frame {s : State} {b : Byte} {res : BitVec 6} {len : Len10} {payload : List Byte} {rx : Crc24}
    (hfull : s.len ≠ s.cfg.bufCap) (hpayload : payload.length = len.toNat)
    (hbytes : (s.append b).bytes = frame res len payload rx) :
    exec (.push b) s = .next ((s.append b).checkCandidate len).emptyBuffer := by
  have hlength : (s.append b).payloadLength = len := State.payloadLength_of_frame hbytes
  have hlen : (s.append b).len = frameLength (s.append b).payloadLength := by
    rw [hlength, State.len_of_frame hpayload hbytes]
  rw [exec_push_of_not_full hfull, State.extract_of_complete (s.append_wf b) (State.byteAt_zero_of_frame hbytes) hlen,
    hlength]

/-- Settles O29: the completed frame is checked as one whose CRCs agree. -/
theorem pushCompletesAGoodFrame : Obligations.PushCompletesAGoodFrame := by
  intro s b res len payload hpayload hframe hfull
  have hbytes := (s.append_bytes b).trans hframe
  refine ⟨_, exec_push_of_frame hfull hpayload hbytes, ?_⟩
  rw [State.checkCandidate_of_goodFrame hpayload hbytes rfl]
  rfl

/-- Settles O30: the completed frame is checked as one whose CRCs differ. -/
theorem pushCompletesABadFrame : Obligations.PushCompletesABadFrame := by
  intro s b res len payload rx hpayload hframe hrx hfull
  have hbytes := (s.append_bytes b).trans hframe
  refine ⟨_, exec_push_of_frame hfull hpayload hbytes, ?_⟩
  rw [State.checkCandidate_of_badFrame hpayload hbytes hrx, frameLength_eq]
  rfl

end Sys2Proof.Machine
end

section
/-! SUPPORT. What a response leaves to be read, the run of CRC.UPDs, and the proofs of the statements about the
system commands (42_system.md R180 to R182, R185). -/

namespace Sys2Proof.Machine

open Sys2Proof.Safety

/-! ### The system commands (R180 to R182) -/

@[simp] theorem State.respond_regWord (s : State) (v : Word32) (n : RegName) :
    (s.respond v).regWord n = s.regWord n := by
  cases n <;> rfl

/-- No register shows what has been responded (R181). -/
@[simp] theorem State.respond_readReg (s : State) (v : Word32) (r : RegNum) :
    (s.respond v).readReg r = s.readReg r := by
  simp only [State.readReg, State.respond_regWord]

/-- Settles O18: the meaning of NOP is the state itself. -/
theorem nopChangesNothing : Obligations.NopChangesNothing := exec_nop

/-- Settles O19: the meaning of RDREG is one response, and no register shows it. -/
theorem rdregRespondsTheRegister : Obligations.RdregRespondsTheRegister := fun s r =>
  ⟨s.respond (s.readReg r), exec_rdreg r s, rfl, s.respond_readReg _, s.readReg_reserved⟩

/-- Settles O22: the meaning of SRST is the update that clears every element. -/
theorem srstResetsEveryElement : Obligations.SrstResetsEveryElement := exec_srst

/-! ### The pseudo-instruction CRC24Q (R185) -/

/-- The CRC.UPDs of a byte sequence fold it into `ACC`, and the commands after them run on from there. -/
theorem execAll_crcUpds_append (bs : List Byte) (is : List Instr) (s : State) :
    execAll (bs.map .crcUpd ++ is) s = execAll is { s with acc := crcFrom s.acc bs } := by
  induction bs generalizing s with
  | nil => rfl
  | cons b bs ih => exact (execAll_cons_of_next (exec_crcUpd b s) _).trans (ih _)

/-- `RDREG CRCACC` as a run: one response of `ACC`. -/
theorem execAll_expandCrcRd (s : State) : execAll expandCrcRd s = .next (s.respond (s.acc.setWidth 32)) := by
  rw [← s.readReg_crcacc]
  exact execAll_cons_of_next (exec_rdreg 0x07#8 s) []

theorem execAll_expandCrc24q (bs : List Byte) (s : State) :
    execAll (expandCrc24q bs) s =
      .next (({ s with acc := crc24q bs } : State).respond ((crc24q bs).setWidth 32)) :=
  calc execAll (expandCrc24q bs) s
    _ = execAll (bs.map Instr.crcUpd ++ expandCrcRd) { s with acc := 0x000000#24 } :=
        execAll_cons_of_next (exec_crcClr s) _
    _ = execAll expandCrcRd { s with acc := crc24q bs } := execAll_crcUpds_append bs expandCrcRd _
    _ = _ := execAll_expandCrcRd _

/-- Settles O17: CRC.CLR starts the checksum, the CRC.UPDs fold in the bytes, RDREG CRCACC responds it. -/
theorem crc24qPseudoRespondsTheChecksum : Obligations.Crc24qPseudoRespondsTheChecksum := fun s bs =>
  ⟨rfl, _, execAll_expandCrc24q bs s, rfl⟩

end Sys2Proof.Machine
end

section
/-! SUPPORT. What a step appends to the trace against the sticky flags (60_exceptions.md R200, R209), and the proof of
the statement about them. -/

namespace Sys2Proof.Machine

open Sys2Proof.Safety

/-! ### A fault's event and its flag (R200) -/

/-- The flag that the fault behind this item of the trace sets is 1 in `t`; the other items ask for no flag. -/
def State.FlagSetFor (t : State) : OutItem → Prop
  | .evt (.overflow _) => t.ovf = true
  | .evt (.illegal _) => t.ill = true
  | .evt (.decoded ..) => True
  | .evt (.crcFail ..) => True
  | .rsp _ => True

/-- `t` has the trace of `s` and after it only items whose flag is set in `t`. -/
def FaultsFlagged (s t : State) : Prop :=
  ∃ new, t.out = s.out ++ new ∧ ∀ x ∈ new, t.FlagSetFor x

theorem FlagsKept.flagSetFor {s t : State} (h : FlagsKept s t) {x : OutItem} (hx : s.FlagSetFor x) :
    t.FlagSetFor x := by
  match x, hx with
  | .evt (.overflow _), hx => exact h.ovf hx
  | .evt (.illegal _), hx => exact h.ill hx
  | .evt (.decoded ..), _ => trivial
  | .evt (.crcFail ..), _ => trivial
  | .rsp _, _ => trivial

theorem State.flagSetFor_of_check (t : State) {e : Event} (h : isDecoded e = true ∨ isCrcFail e = true) :
    t.FlagSetFor (.evt e) := by
  cases e with
  | decoded => trivial
  | crcFail => trivial
  | overflow => simp [isDecoded, isCrcFail] at h
  | illegal => simp [isDecoded, isCrcFail] at h

theorem FaultsFlagged.of_out_eq {s t : State} (h : t.out = s.out) : FaultsFlagged s t :=
  ⟨[], by simpa using h, by simp⟩

theorem FaultsFlagged.of_out_append_one {s t : State} {x : OutItem} (h : t.out = s.out ++ [x])
    (hx : t.FlagSetFor x) : FaultsFlagged s t :=
  ⟨[x], h, by simpa using hx⟩

/-- Two passages one after another, when the second clears no flag that the first one needs. -/
theorem FaultsFlagged.trans {s t u : State} (h : FaultsFlagged s t) (k : FaultsFlagged t u)
    (hkept : FlagsKept t u) : FaultsFlagged s u := by
  obtain ⟨xs, hout, hset⟩ := h
  obtain ⟨ys, kout, kset⟩ := k
  refine ⟨xs ++ ys, by rw [kout, hout, List.append_assoc], fun x hx => ?_⟩
  rcases List.mem_append.mp hx with hx | hx
  · exact hkept.flagSetFor (hset x hx)
  · exact kset x hx

/-! ### The operations that append to the trace -/

/-- The one fault entry sets the flag of the event it emits (R207). -/
theorem faultsFlagged_raise (s : State) (f : FaultInfo) : FaultsFlagged s (s.raise f) := by
  cases f with
  | crcMismatch len rx comp dump => exact .of_out_append_one rfl trivial
  | bufferOverflow => exact .of_out_append_one rfl rfl
  | illegalCommand w => exact .of_out_append_one rfl rfl

theorem faultsFlagged_overflowCheck (s : State) : FaultsFlagged s s.overflowCheck := by
  rcases s.overflowCheck_cases with ⟨_, h⟩ | ⟨_, h⟩ <;> rw [h]
  · exact faultsFlagged_raise s _
  · exact .of_out_eq rfl

theorem faultsFlagged_checkCandidate (s : State) (len : Len10) : FaultsFlagged s (s.checkCandidate len) := by
  obtain ⟨e, he, hout, -⟩ := s.checkCandidate_emits len
  exact .of_out_append_one hout (State.flagSetFor_of_check _ he)

theorem flagsKept_checkCandidate (s : State) (len : Len10) : FlagsKept s (s.checkCandidate len) :=
  ⟨by simp, by simp, by simp⟩

/-- The loop emits DECODED and CRCFAIL events only, and these ask for no flag. -/
theorem faultsFlagged_extract (s : State) : FaultsFlagged s s.extract := by
  refine State.extract_keeps (P := FaultsFlagged s) (fun t ht => ?search) (fun t ht _ => ?check) (.of_out_eq rfl)
  case search => exact ht.trans (.of_out_eq t.step1_out) ⟨id, id, id⟩
  case check =>
    have hcheck := ht.trans (faultsFlagged_checkCandidate t t.payloadLength) (flagsKept_checkCandidate t _)
    exact hcheck.trans (.of_out_eq (State.dropFront_out _ _)) ⟨id, id, id⟩

/-! ### Commands and steps -/

/-- PUSH alone can report an overflow, by its overflow check; nothing after the check clears `OVF`. -/
theorem faultsFlagged_exec {i : Instr} {s t : State} (h : exec i s = .next t) : FaultsFlagged s t := by
  cases i with
  | nop => cases h; exact .of_out_eq rfl
  | push b =>
    cases h
    have happend : FaultsFlagged s (s.overflowCheck.append b) :=
      (faultsFlagged_overflowCheck s).trans (.of_out_eq (State.append_out _ b)) ⟨id, id, id⟩
    exact happend.trans (faultsFlagged_extract _) (flagsKept_extract _)
  | flush => cases h; exact .of_out_eq rfl
  | crcClr => cases h; exact .of_out_eq rfl
  | crcUpd b => cases h; exact .of_out_eq rfl
  | rdreg r => cases h; exact .of_out_append_one rfl trivial
  | srst => cases h; exact .of_out_eq rfl

/-- Every step leaves the flags of the faults it reports set; SRST and the reset pin report none. -/
theorem faultsFlagged_step {s t : State} (h : step s = .next t) : FaultsFlagged s t := by
  rcases step_cases h with ⟨_, rfl⟩ | ⟨w, rest, i, _, _, he⟩ | ⟨w, rest, e, _, _, rfl⟩ | ⟨rest, _, rfl⟩ |
    ⟨rest, _, rfl⟩ | ⟨rest, _, rfl⟩
  · exact .of_out_eq rfl
  · exact faultsFlagged_exec (s := s.accept rest) he
  · exact faultsFlagged_raise (s.accept rest) _
  · exact .of_out_eq rfl
  · exact .of_out_eq rfl
  · exact .of_out_eq rfl

/-- Settles O47: only SRST and the reset pin clear a flag, and an OVERFLOW or ILLEGAL event comes with its flag. -/
theorem stickyFlagsStaySet : Obligations.StickyFlagsStaySet := by
  intro s t h hreset hsrst
  obtain ⟨hovf, hill, hlastv⟩ := flagsKept_step h hreset hsrst
  obtain ⟨new, hout, hset⟩ := faultsFlagged_step h
  exact ⟨hovf, hill, hlastv, new, hout, fun ⟨_, hd⟩ => hset _ hd, fun ⟨_, hw⟩ => hset _ hw⟩

end Sys2Proof.Machine
end

section
/-! SUPPORT. The proofs of the statements about the decoder (30_encoding.md sections 1 to 3). -/

namespace Sys2Proof

/-- Settles O3: the decoder reads back the two fields the encoder writes. -/
theorem decodeOfEncodeIsTheInstruction : Obligations.DecodeOfEncodeIsTheInstruction :=
  fun i _ => decode_encode i

/-- Settles O4: the fields the decoder has read are those of the command's word. -/
theorem encodeOfDecodeIsTheWord : Obligations.EncodeOfDecodeIsTheWord := fun _ _ => encode_of_decode

/-- Settles O1: one case for each arm of the decoder, by the number its `op` must be. -/
theorem decoderReadsOpThenArg : Obligations.DecoderReadsOpThenArg := by
  intro op arg
  simp only [decode, decodeN, Cmd.op_append, Cmd.arg_append]
  split
  case h_8 h0 h1 h2 h4 h5 h7 hF =>
    have hne (c : BitVec 4) (h : op.toNat = c.toNat → False) : op ≠ c := fun hc => h (congrArg BitVec.toNat hc)
    have hother : ¬ (op = 0x0#4 ∨ op = 0x2#4 ∨ op = 0x4#4 ∨ op = 0xF#4) := by
      simp only [not_or]
      exact ⟨hne 0x0#4 h0, hne 0x2#4 h2, hne 0x4#4 h4, hne 0xF#4 hF⟩
    rw [if_neg (hne 0x1#4 h1), if_neg (hne 0x5#4 h5), if_neg (hne 0x7#4 h7), if_neg hother]
  case h_1 hop => obtain rfl : op = 0x0#4 := BitVec.eq_of_toNat_eq hop; rfl
  case h_2 hop => obtain rfl : op = 0x1#4 := BitVec.eq_of_toNat_eq hop; rfl
  case h_3 hop => obtain rfl : op = 0x2#4 := BitVec.eq_of_toNat_eq hop; rfl
  case h_4 hop => obtain rfl : op = 0x4#4 := BitVec.eq_of_toNat_eq hop; rfl
  case h_5 hop => obtain rfl : op = 0x5#4 := BitVec.eq_of_toNat_eq hop; rfl
  case h_6 hop => obtain rfl : op = 0x7#4 := BitVec.eq_of_toNat_eq hop; rfl
  case h_7 hop => obtain rfl : op = 0xF#4 := BitVec.eq_of_toNat_eq hop; rfl

/-- Settles O2: nine words, each evaluated by the decoder. -/
theorem wordsOfTheOpcodeMapDecode : Obligations.WordsOfTheOpcodeMapDecode := by
  unfold Obligations.WordsOfTheOpcodeMapDecode
  decide

end Sys2Proof
end

section
/-! SUPPORT. What a command sends to the trace and the two ports (20_memory.md section 6), that every step has a next
state, the packing of events (30_encoding.md R100), and the proofs of the statements about them. -/

namespace Sys2Proof.Machine

open Sys2Proof.Safety

/-! ### Sending items to the trace and the ports -/

/-- The items `new` at the end of `OUT`, and what they send at the ends of the two ports' queues. -/
def State.send (s : State) (new : List OutItem) : State :=
  { s with out := s.out ++ new, evtPort := s.evtPort ++ new.flatMap OutItem.transfers,
           rspPort := s.rspPort ++ new.flatMap OutItem.responses }

theorem State.emit_eq_send (s : State) (e : Event) : s.emit e = s.send [.evt e] := by
  simp [State.emit, State.send, OutItem.transfers, OutItem.responses]

theorem State.respond_eq_send (s : State) (v : Word32) : s.respond v = s.send [.rsp v] := by
  simp [State.respond, State.send, OutItem.transfers, OutItem.responses]

@[simp] theorem State.send_nil (s : State) : s.send [] = s := by
  simp [State.send]

theorem State.send_send (s : State) (xs ys : List OutItem) : (s.send xs).send ys = s.send (xs ++ ys) := by
  simp [State.send]

@[simp] theorem State.setBytes_clear (s : State) (bs : List Byte) : (s.setBytes bs).clear = s.clear := rfl

/-- `t` is `s` after sending `new`, but for the elements of 10_state.md R20, which `State.clear` blots out. -/
def Sends (s t : State) (new : List OutItem) : Prop := t.clear = (s.send new).clear

namespace Sends

variable {s t u : State} {new xs ys : List OutItem}

theorem clear_eq (h : Sends s t new) : t.clear = (s.send new).clear := h

theorem out (h : Sends s t new) : t.out = s.out ++ new := congrArg State.out h.clear_eq
theorem evtPort (h : Sends s t new) : t.evtPort = s.evtPort ++ new.flatMap OutItem.transfers :=
  congrArg State.evtPort h.clear_eq
theorem rspPort (h : Sends s t new) : t.rspPort = s.rspPort ++ new.flatMap OutItem.responses :=
  congrArg State.rspPort h.clear_eq
theorem evtTaken (h : Sends s t new) : t.evtTaken = s.evtTaken := (congrArg State.evtTaken h.clear_eq :)
theorem rspTaken (h : Sends s t new) : t.rspTaken = s.rspTaken := (congrArg State.rspTaken h.clear_eq :)
theorem inputs (h : Sends s t new) : t.inputs = s.inputs := (congrArg State.inputs h.clear_eq :)
theorem cfg (h : Sends s t new) : t.cfg = s.cfg := (congrArg State.cfg h.clear_eq :)

/-- What is sent does not depend on the elements. -/
theorem congr_clear (h : Sends s t new) (hu : u.clear = t.clear) : Sends s u new := hu.trans h

/-- A change of elements alone sends nothing. -/
theorem of_clear_eq (h : t.clear = s.clear) : Sends s t [] := by
  rw [Sends, State.send_nil, h]

theorem trans (h : Sends s t xs) (k : Sends t u ys) : Sends s u (xs ++ ys) :=
  calc u.clear
    _ = t.clear.send ys := k
    _ = (s.send xs).clear.send ys := by rw [h]
    _ = (s.send (xs ++ ys)).clear := congrArg State.clear (s.send_send xs ys)

theorem of_emit (h : t.clear = s.clear) (e : Event) : Sends s (t.emit e) [.evt e] := by
  rw [State.emit_eq_send]
  exact congrArg (State.send · [.evt e]) h

end Sends

/-- `t` is `s` after sending the events `new`, but for the elements. -/
abbrev SendsEvents (s t : State) (new : List Event) : Prop := Sends s t (new.map .evt)

theorem flatMap_transfers_evt (new : List Event) :
    (new.map OutItem.evt).flatMap OutItem.transfers = new.flatMap Event.transfers :=
  List.flatMap_map ..

theorem flatMap_responses_evt (new : List Event) : (new.map OutItem.evt).flatMap OutItem.responses = [] := by
  simp [OutItem.responses]

/-! ### What each operation sends -/

theorem sends_raise (s : State) (f : FaultInfo) : Sends s (s.raise f) [.evt (s.faultEvent f)] := by
  cases f <;> exact .of_emit rfl _

theorem sends_checkCandidate (s : State) (len : Len10) :
    ∃ e, Sends s (s.checkCandidate len) [.evt e] := by
  rcases s.checkCandidate_cases len with ⟨_, h⟩ | ⟨_, h⟩ <;> rw [h]
  · rw [State.step6_eq]; exact ⟨_, .of_emit rfl _⟩
  · rw [State.step7_eq]; exact ⟨_, .of_emit rfl _⟩

theorem sends_overflowCheck (s : State) : ∃ new, SendsEvents s s.overflowCheck new := by
  rcases s.overflowCheck_cases with ⟨_, h⟩ | ⟨_, h⟩ <;> rw [h]
  · exact ⟨[_], sends_raise s .bufferOverflow⟩
  · exact ⟨[], .of_clear_eq rfl⟩

theorem SendsEvents.trans {s t u : State} {xs ys : List Event} (h : SendsEvents s t xs) (k : SendsEvents t u ys) :
    SendsEvents s u (xs ++ ys) := by
  rw [SendsEvents, List.map_append]
  exact Sends.trans h k

theorem sends_extract (s : State) : ∃ new, SendsEvents s s.extract new := by
  refine State.extract_keeps (P := fun t => ∃ new, SendsEvents s t new) ?search ?check ⟨[], .of_clear_eq rfl⟩
  case search =>
    rintro t ⟨new, h⟩
    exact ⟨new, h.congr_clear (State.setBytes_clear _ _)⟩
  case check =>
    rintro t ⟨new, h⟩ -
    obtain ⟨e, he⟩ := sends_checkCandidate t t.payloadLength
    exact ⟨new ++ [e], (SendsEvents.trans h he).congr_clear (State.setBytes_clear _ _)⟩

theorem sends_push (s : State) (b : Byte) : ∃ new, SendsEvents s (s.overflowCheck.append b).extract new := by
  obtain ⟨xs, hcheck⟩ := sends_overflowCheck s
  obtain ⟨ys, hextract⟩ := sends_extract (s.overflowCheck.append b)
  have happend := hcheck.congr_clear (State.setBytes_clear _ (s.overflowCheck.bytes ++ [b]))
  exact ⟨xs ++ ys, SendsEvents.trans happend hextract⟩

/-- Every command completes, and all it does outside the elements is to send some items. -/
theorem exec_sends (i : Instr) (s : State) : ∃ t new, exec i s = .next t ∧ Sends s t new := by
  cases i with
  | nop | flush | crcClr | crcUpd | srst => exact ⟨_, [], rfl, .of_clear_eq rfl⟩
  | push b =>
    obtain ⟨new, h⟩ := sends_push s b
    exact ⟨_, _, exec_push b s, h⟩
  | rdreg r => exact ⟨_, [.rsp _], exec_rdreg r s, congrArg State.clear (s.respond_eq_send _)⟩

/-- So does every word, a reserved encoding too. -/
theorem runWord_sends (w : Cmd) (s : State) : ∃ t new, runWord w s = .next t ∧ Sends s t new := by
  cases hd : decode w with
  | ok i => rw [runWord_ok hd]; exact exec_sends i s
  | error e => exact ⟨_, _, runWord_error hd s, sends_raise s _⟩

/-- Settles O39: the overflow check and the loop's checks send events, and nothing writes `ACC` or `ILL`. -/
theorem pushFrame : Obligations.PushFrame := by
  intro s b
  obtain ⟨new, h⟩ := sends_push s b
  obtain ⟨hacc, hill⟩ : s.overflowCheck.acc = s.acc ∧ s.overflowCheck.ill = s.ill := by
    rcases s.overflowCheck_cases with ⟨_, h⟩ | ⟨_, h⟩ <;> rw [h] <;> exact ⟨rfl, rfl⟩
  refine ⟨_, new, exec_push b s, ?acc, ?ill, h.cfg, h.inputs, h.evtTaken, ?rsp, h.rspTaken, h.out, ?evt⟩
  case acc => rw [State.extract_acc, State.append_acc, hacc]
  case ill => rw [State.extract_ill, State.append_ill, hill]
  case rsp => rw [h.rspPort, flatMap_responses_evt, List.append_nil]
  case evt => rw [h.evtPort, flatMap_transfers_evt]

/-- Settles O59: what a word sends goes to the trace and, item by item, to the ports. -/
theorem execOutputsWaitOnTheirPorts : Obligations.ExecOutputsWaitOnTheirPorts := by
  intro s w
  obtain ⟨t, new, hrun, h⟩ := runWord_sends w s
  exact ⟨t, new, hrun, h.out, h.evtPort, h.rspPort, h.evtTaken, h.rspTaken, h.inputs, h.cfg⟩

/-! ### Every step -/

theorem takeInput_next (s : State) (rest : List PortInput) (i : PortInput) : ∃ t, takeInput s rest i = .next t := by
  cases i with
  | command w =>
    obtain ⟨t, -, hrun, -⟩ := runWord_sends w (s.accept rest)
    exact ⟨t, hrun⟩
  | reset | takeEvent | takeResponse => exact ⟨_, rfl⟩

/-- Settles O54: an idle step holds the state, every input has an outcome, and a word only adds to the trace. -/
theorem everyStepHasANextState : Obligations.EveryStepHasANextState := by
  refine fun s => ⟨?step, fun w => ?word⟩
  case step =>
    cases hin : s.inputs with
    | nil => exact ⟨s, step_idle hin⟩
    | cons i rest => rw [step_of_input hin]; exact takeInput_next s rest i
  case word =>
    obtain ⟨t, new, hrun, h⟩ := runWord_sends w s
    exact ⟨t, new, hrun, h.out⟩

theorem portsCarryTrace_of_sends {s t : State} {new : List OutItem} (hs : PortsCarryTrace s) (h : Sends s t new) :
    PortsCarryTrace t := by
  obtain ⟨hevt, hrsp⟩ := hs
  rw [PortsCarryTrace, h.out, h.evtPort, h.rspPort, h.evtTaken, h.rspTaken, List.flatMap_append, List.flatMap_append,
    ← hevt, ← hrsp, List.append_assoc, List.append_assoc]
  exact ⟨rfl, rfl⟩

/-- Accepting a command moves what waits on the event port to what was taken. -/
theorem portsCarryTrace_accept {s : State} (hs : PortsCarryTrace s) (rest : List PortInput) :
    PortsCarryTrace (s.accept rest) := by
  simpa [PortsCarryTrace] using hs

/-- Settles O58: a command sends in order and a taking moves the oldest item of a port to what was taken. -/
theorem portsCarryTheTraceInOrder : Obligations.PortsCarryTheTraceInOrder := by
  refine ⟨⟨rfl, rfl⟩, fun s t hs hstep hreset => ?_⟩
  rcases step_cases hstep with ⟨_, rfl⟩ | ⟨w, rest, i, _, _, he⟩ | ⟨w, rest, e, _, _, rfl⟩ | ⟨rest, hin, _⟩ |
    ⟨rest, _, rfl⟩ | ⟨rest, _, rfl⟩
  · exact hs
  · obtain ⟨u, new, hexec, h⟩ := exec_sends i (s.accept rest)
    obtain rfl : u = t := Host.Outcome.next.inj (hexec.symm.trans he)
    exact portsCarryTrace_of_sends (portsCarryTrace_accept hs rest) h
  · exact portsCarryTrace_of_sends (portsCarryTrace_accept hs rest) (sends_raise _ _)
  · exact absurd ⟨rest, hin⟩ hreset
  · simpa [PortsCarryTrace, -List.drop_one] using hs
  · simpa [PortsCarryTrace, -List.drop_one] using hs

/-! ### The statements about one operation -/

/-- Settles O24: the reset pin's update, field by field. -/
theorem resetPinResetsTheBlock : Obligations.ResetPinResetsTheBlock := fun _ _ h => step_of_input h

/-- Settles O53: with no input a step is the state itself. -/
theorem idleBlockHoldsItsState : Obligations.IdleBlockHoldsItsState := fun _ => step_idle

/-- Settles O52: the step of a word offered is `runWord` at the accepted state. -/
theorem stepRunsTheDecodedCommand : Obligations.StepRunsTheDecodedCommand := fun s w rest hin =>
  have hstep : step s = runWord w (s.accept rest) := step_of_input hin
  ⟨fun _ hd _ => hstep.trans (runWord_ok hd _), fun _ hd => hstep.trans (runWord_error hd _)⟩

/-- Settles O45: the three fault entries, field by field. -/
theorem raiseRecordsAndEmits : Obligations.RaiseRecordsAndEmits := fun s =>
  ⟨fun len rx comp dump => s.raise_crcMismatch len rx comp dump,
    ⟨zext32 s.cfg.bufCap, zext32_toNat, s.raise_bufferOverflow⟩, fun w => s.raise_illegalCommand w⟩

/-- Settles O40: each of the four meanings is an update of `ACC` or a response. -/
theorem commandsThatDoNotTouchTheFramer : Obligations.CommandsThatDoNotTouchTheFramer := by
  rintro s i (rfl | rfl | ⟨b, rfl⟩ | ⟨r, rfl⟩)
  · exact ⟨_, exec_nop s, by simp⟩
  · exact ⟨_, exec_crcClr s, by simp [State.byteAt, State.bytes, State.len]⟩
  · exact ⟨_, exec_crcUpd b s, by simp [State.byteAt, State.bytes, State.len]⟩
  · exact ⟨_, exec_rdreg r s, by simp [State.byteAt]⟩

end Sys2Proof.Machine
end

section
/-! SUPPORT. The fields of `LASTHDR` (10_state.md R29), the words and flags of an event's transfers (30_encoding.md
R100), and the proofs of the statements about them. -/

namespace Sys2Proof.Machine

/-! ### The fields of `LASTHDR` -/

section Fields

variable (ok tv : Bool) (type : Type12) (len : Len10)

@[simp] theorem hdrLen10_packLastHdr : hdrLen10 (packLastHdr ok tv type len) = len :=
  BitVec.extractLsb'_append_eq_right

@[simp] theorem hdrType_packLastHdr : hdrType (packLastHdr ok tv type len) = type :=
  (BitVec.extractLsb'_append_eq_of_le (by decide)).trans BitVec.extractLsb'_append_eq_right

@[simp] theorem hdrTypeValid_packLastHdr : hdrTypeValid (packLastHdr ok tv type len) = tv := by
  rw [hdrTypeValid, packLastHdr, BitVec.getLsbD_append, if_neg (by decide), BitVec.getLsbD_append,
    if_neg (by decide), BitVec.getLsbD_append, if_pos (by decide)]
  exact BitVec.getLsbD_ofBool ..

@[simp] theorem hdrCrcOk_packLastHdr : hdrCrcOk (packLastHdr ok tv type len) = ok := by
  rw [hdrCrcOk, packLastHdr, BitVec.getLsbD_append, if_neg (by decide), BitVec.getLsbD_append,
    if_neg (by decide), BitVec.getLsbD_append, if_neg (by decide)]
  exact BitVec.getLsbD_ofBool ..

end Fields

/-- Settles O35: the fields read back what `packLastHdr` has packed. -/
theorem lastHdrFields : Obligations.LastHdrFields := fun _ len type tv ok _ _ =>
  ⟨hdrLen10_packLastHdr ok tv type len, hdrType_packLastHdr ok tv type len,
    hdrTypeValid_packLastHdr ok tv type len, hdrCrcOk_packLastHdr ok tv type len, rfl, rfl, rfl⟩

/-! ### The descriptor words -/

theorem zext32_crc24 (c : Crc24) : c.setWidth 32 = 0#8 ++ c := BitVec.setWidth_eq_append (by decide)

theorem zext32_cmd (w : Cmd) : w.setWidth 32 = 0#20 ++ w := BitVec.setWidth_eq_append (by decide)

theorem zext32_byte (b : Byte) : b.setWidth 32 = 0#24 ++ b := BitVec.setWidth_eq_append (by decide)

/-- The fields of `W0` above the code are those of `LASTHDR`, in the same order. -/
theorem Event.w0_eq_packLastHdr (e : Event) :
    e.w0 =
      ((packLastHdr e.crcOkField e.typeValidField e.typeField e.lenField).setWidth 32 <<< 4) |||
        e.code.setWidth 32 := by
  rw [← BitVec.setWidth_append_eq_shiftLeft_setWidth_or]
  apply BitVec.eq_of_toNat_eq
  rw [BitVec.toNat_setWidth_of_le (by decide)]
  simp only [Event.w0, packLastHdr]
  repeat rw [BitVec.toNat_append]
  simp

theorem overflow_w0 (d : Word32) : (Event.overflow d).w0 = 3#32 := by
  simp only [Event.w0, Event.crcOkField, Event.typeValidField, Event.typeField, Event.lenField, Event.code]
  decide

theorem illegal_w0 (w : Cmd) : (Event.illegal w).w0 = 4#32 := by
  simp only [Event.w0, Event.crcOkField, Event.typeValidField, Event.typeField, Event.lenField, Event.code]
  decide

/-! ### The data bytes as transfers -/

theorem dataTransfers_word : ∀ bs : List Byte, (dataTransfers bs).map Transfer.word = bs.map (0#24 ++ ·)
  | [] => rfl
  | [b] => congrArg ([·]) (zext32_byte b)
  | b :: c :: bs => congrArg₂ List.cons (zext32_byte b) (dataTransfers_word (c :: bs))

theorem dataTransfers_isData : ∀ bs : List Byte,
    (dataTransfers bs).map Transfer.isData = List.replicate (dataTransfers bs).length true
  | [] | [_] => rfl
  | _ :: c :: bs => congrArg (true :: ·) (dataTransfers_isData (c :: bs))

/-- `evt_last` from `W2` on: 1 on the last transfer alone, which is `W2` when there is no data byte. -/
theorem dataTransfers_last : ∀ bs : List Byte,
    bs.isEmpty :: (dataTransfers bs).map Transfer.last = List.replicate (dataTransfers bs).length false ++ [true]
  | [] | [_] => rfl
  | _ :: c :: bs => congrArg (false :: ·) (dataTransfers_last (c :: bs))

/-! ### The transfers of an event -/

theorem Event.transfers_word (e : Event) :
    e.transfers.map Transfer.word = [e.w0, e.w1, e.w2] ++ e.dataBytes.map (0#24 ++ ·) :=
  congrArg ([e.w0, e.w1, e.w2] ++ ·) (dataTransfers_word e.dataBytes)

theorem Event.transfers_isData (e : Event) :
    e.transfers.map Transfer.isData = [false, false, false] ++ List.replicate (e.transfers.length - 3) true :=
  congrArg ([false, false, false] ++ ·) (dataTransfers_isData e.dataBytes)

theorem Event.transfers_last (e : Event) :
    e.transfers.map Transfer.last = List.replicate (e.transfers.length - 1) false ++ [true] :=
  congrArg ([false, false] ++ ·) (dataTransfers_last e.dataBytes)

/-- Settles O50: each kind's words from its fields, zero-extended; the flags are the same for every kind. -/
theorem eventTransfersLayout : Obligations.EventTransfersLayout := by
  refine ⟨fun len type tv crc payload => ?decoded, fun len rx comp dump => ?crcFail,
    fun d => ?overflow, fun w => ?illegal,
    fun e => ⟨e.transfers_isData, e.transfers_last⟩⟩
  case decoded =>
    rw [Event.transfers_word, Event.w1, Event.w2, zext32_crc24]
    rfl
  case crcFail =>
    rw [Event.transfers_word, Event.w1, Event.w2, zext32_crc24, zext32_crc24]
    rfl
  case overflow =>
    rw [Event.transfers_word, overflow_w0]
    rfl
  case illegal =>
    rw [Event.transfers_word, illegal_w0, Event.w1, zext32_cmd]
    rfl

end Sys2Proof.Machine
end

section
/-! SUPPORT. The framer's reads of the buffer as reads of its bytes below `LEN` (20_memory.md R66), and the proofs of
the statements about them. -/

namespace Sys2Proof.Machine

open Sys2Proof.Safety

/-! ### Slices, byte by byte -/

theorem State.slice_succ {s : State} {i : Nat} {x : Byte} (h : s.byteAt i = some x) (n : Nat) :
    s.slice i (n + 1) = x :: s.slice (i + 1) n := by
  obtain ⟨hi, rfl⟩ := List.getElem?_eq_some_iff.mp h
  rw [State.slice, List.drop_eq_getElem_cons hi, List.take_succ_cons, State.slice]

theorem State.slice_three {s : State} {i : Nat} {x y z : Byte} (hx : s.byteAt i = some x)
    (hy : s.byteAt (i + 1) = some y) (hz : s.byteAt (i + 2) = some z) : s.slice i 3 = [x, y, z] := by
  rw [State.slice_succ hx, State.slice_succ hy, State.slice_succ hz, State.slice, List.take_zero]

theorem State.exists_byteAt {s : State} {a : Nat} (h : a < s.len) : ∃ b, s.byteAt a = some b :=
  ⟨_, List.getElem?_eq_getElem (by rwa [State.bytes_length])⟩

/-- A slice from the front, byte by byte. -/
theorem State.slice_zero_getElem? (s : State) {a n : Nat} (h : a < n) : (s.slice 0 n)[a]? = s.byteAt a := by
  rw [State.slice, List.drop_zero, List.getElem?_take_of_lt h, State.byteAt]

theorem State.slice_zero_add (s : State) (m n : Nat) : s.slice 0 (m + n) = s.slice 0 m ++ s.slice m n := by
  simp [State.slice, List.take_add]

/-! ### The trailer (41_framer.md R148) -/

theorem State.rxCrc_of_byteAt {s : State} {n : Nat} {x y z : Byte} (hn : 3 ≤ n) (hx : s.byteAt (n - 3) = some x)
    (hy : s.byteAt (n - 2) = some y) (hz : s.byteAt (n - 1) = some z) : s.rxCrc n = x ++ y ++ z := by
  rw [show n - 2 = n - 3 + 1 by omega] at hy
  rw [show n - 1 = n - 3 + 2 by omega] at hz
  exact State.rxCrc_of_slice (State.slice_three hx hy hz)

/-- The three bytes of the trailer of a frame that is all there. -/
theorem State.exists_trailer {s : State} {n : Nat} (hn : 3 ≤ n) (hlen : n ≤ s.len) :
    ∃ x y z, s.byteAt (n - 3) = some x ∧ s.byteAt (n - 2) = some y ∧ s.byteAt (n - 1) = some z := by
  obtain ⟨x, hx⟩ := s.exists_byteAt (a := n - 3) (by omega)
  obtain ⟨y, hy⟩ := s.exists_byteAt (a := n - 2) (by omega)
  obtain ⟨z, hz⟩ := s.exists_byteAt (a := n - 1) (by omega)
  exact ⟨x, y, z, hx, hy, hz⟩

/-- Settles O34: the three bytes one above the other, as a number. -/
theorem receivedCrcIsBigEndian : Obligations.ReceivedCrcIsBigEndian := by
  intro s n x y z hn hx hy hz
  rw [State.rxCrc_of_byteAt hn hx hy hz, BitVec.toNat_append, BitVec.toNat_append, Nat.shiftLeft_or_distrib,
    ← Nat.shiftLeft_add]

/-! ### What the reads of a candidate see of bytes above `LEN` -/

section Extend

variable {s : State} (xs : List Byte)

theorem State.payloadLength_extend (h : 3 ≤ s.len) :
    (s.setBytes (s.bytes ++ xs)).payloadLength = s.payloadLength := by
  rw [State.payloadLength, State.memRead_append h, State.payloadLength]

theorem State.rxCrc_extend {n : Nat} (hn : 3 ≤ n) (h : n ≤ s.len) :
    (s.setBytes (s.bytes ++ xs)).rxCrc n = s.rxCrc n := by
  rw [State.rxCrc, State.memRead_append (by rwa [Nat.sub_add_cancel hn]), State.rxCrc]

theorem State.calcCrc_extend {n : Nat} (h : n ≤ s.len) : (s.setBytes (s.bytes ++ xs)).calcCrc n = s.calcCrc n := by
  rw [State.calcCrc, State.slice_append (by omega), State.calcCrc]

theorem State.messageType_extend (h : 5 ≤ s.len) : (s.setBytes (s.bytes ++ xs)).messageType = s.messageType := by
  rw [State.messageType, State.memRead_append h, State.messageType]

theorem State.typeOf_extend {len : Len10} (h : frameLength len ≤ s.len) :
    (s.setBytes (s.bytes ++ xs)).typeOf len = s.typeOf len := by
  rw [frameLength_eq] at h
  rw [State.typeOf, State.typeOf]
  split
  · rw [State.messageType_extend xs (by omega)]
  · rfl

/-- The check of a candidate that is all there, with bytes above it (R148 to R152). -/
theorem State.checkCandidate_extend {len : Len10} (h : frameLength len ≤ s.len) :
    (s.setBytes (s.bytes ++ xs)).checkCandidate len = (s.checkCandidate len).setBytes (s.bytes ++ xs) := by
  have hsize := frameLength_eq len
  rw [State.checkCandidate, State.checkCandidate, State.calcCrc_extend xs h, State.rxCrc_extend xs (by omega) h]
  split
  · rw [State.step6_eq, State.step6_eq, State.typeOf_extend xs h,
      State.slice_append (show 3 + len.toNat ≤ s.len by omega)]
    rfl
  · rw [State.step7_eq, State.step7_eq, State.slice_append (by omega)]
    rfl

end Extend

/-! ### The reads of a candidate by the bytes they take -/

theorem not_waits_iff {s : State} : ¬ Waits s ↔ 6 ≤ s.len ∧ frameLength s.payloadLength ≤ s.len := by
  simp [Waits]

theorem State.exists_header {s : State} (h : 3 ≤ s.len) : ∃ b0 b1 b2 rest, s.bytes = b0 :: b1 :: b2 :: rest := by
  rw [← s.bytes_length] at h
  match s.bytes, h with
  | b0 :: b1 :: b2 :: rest, _ => exact ⟨b0, b1, b2, rest, rfl⟩

theorem State.exists_lengthBytes {s : State} (h : 3 ≤ s.len) :
    ∃ b1 b2, s.byteAt 1 = some b1 ∧ s.byteAt 2 = some b2 ∧
      s.payloadLength.toNat = ((b1 &&& 0x03#8).toNat <<< 8) ||| b2.toNat := by
  obtain ⟨b0, b1, b2, rest, hbytes⟩ := State.exists_header h
  refine ⟨b1, b2, ?_, ?_, payloadLengthOfTheHeader s b0 b1 b2 rest hbytes⟩ <;> rw [State.byteAt, hbytes] <;> rfl

theorem State.exists_typeBytes {s : State} (h : 5 ≤ s.len) :
    ∃ p0 p1, s.byteAt 3 = some p0 ∧ s.byteAt 4 = some p1 ∧ s.messageType = p0 ++ p1.extractLsb' 4 4 := by
  obtain ⟨p0, hp0⟩ := s.exists_byteAt (a := 3) (by omega)
  obtain ⟨p1, hp1⟩ := s.exists_byteAt (a := 4) (by omega)
  obtain ⟨b0, b1, b2, rest, hbytes⟩ := State.exists_header (s := s) (by omega)
  refine ⟨p0, p1, hp0, hp1, ?_⟩
  rw [State.byteAt, hbytes] at hp0 hp1
  match rest, hp0, hp1 with
  | _ :: _ :: _, rfl, rfl => exact State.messageType_of_bytes hbytes

/-- The payload is what the CRC covers after the three header bytes. -/
theorem State.slice_payload (s : State) (len : Len10) :
    s.slice 3 len.toNat = (s.slice 0 (frameLength len - 3)).drop 3 := by
  rw [State.slice, State.slice, List.drop_zero, List.drop_take, frameLength_eq]
  rfl

/-- Settles O36: a candidate that is all there ends at or below `LEN`, and so does every field of it. -/
theorem candidateReadsAreBelowLen : Obligations.CandidateReadsAreBelowLen := by
  intro s hw
  obtain ⟨hsix, hlen⟩ := not_waits_iff.mp hw
  have hsize := frameLength_eq s.payloadLength
  obtain ⟨x, y, z, hx, hy, hz⟩ := State.exists_trailer (n := frameLength s.payloadLength) (by omega) hlen
  have hbody : (s.slice 0 (frameLength s.payloadLength - 3)).length = frameLength s.payloadLength - 3 :=
    State.slice_length (by omega)
  refine ⟨State.exists_lengthBytes (by omega), ⟨x, y, z, hx, hy, hz, State.rxCrc_of_byteAt (by omega) hx hy hz⟩,
    fun _ => State.exists_typeBytes (by omega), ⟨_, hbody, fun a ha => ?_, rfl, s.slice_payload _⟩, fun xs => ?_⟩
  · exact (s.slice_zero_getElem? (hbody ▸ ha)).symm
  · exact ⟨State.payloadLength_extend xs (by omega), State.rxCrc_extend xs (by omega) hlen,
      State.calcCrc_extend xs hlen, fun _ => State.messageType_extend xs (by omega), State.slice_append (by omega) xs,
      State.checkCandidate_extend xs hlen⟩

end Sys2Proof.Machine
end

section
/-! SUPPORT. The extraction loop by its passes: that it ends by a return (41_framer.md R158), and what it makes of a
byte sequence given in chunks (R157); with the proof of the statement that it ends. -/

namespace Sys2Proof.Machine

open Sys2Proof.Safety

/-! ### The fuel of the loop (log entry 9) -/

/-- What a pass that does not wait goes on with (R143, R153). -/
def State.pass (s : State) : State :=
  (s.step1.checkCandidate s.step1.payloadLength).dropFront (frameLength s.step1.payloadLength)

theorem State.step1_len_le (s : State) : s.step1.len ≤ s.len := by
  rw [← s.step1.bytes_length, ← s.bytes_length, State.step1_bytes]
  exact (List.dropWhile_sublist _).length_le

/-- A further pass has removed at least 6 bytes of those that were there (R158). -/
theorem State.pass_len_lt {s : State} (h : ¬ Waits s.step1) : s.pass.len < s.len := by
  obtain ⟨hsix, -⟩ := not_waits_iff.mp h
  have hsearch := s.step1_len_le
  have hsize := frameLength_eq s.step1.payloadLength
  rw [State.pass, State.dropFront_len, State.checkCandidate_len]
  omega

/-- Any fuel above `LEN` is as good as any other. -/
theorem State.extractLoop_eq_of_lt {k m : Nat} {s : State} (hk : s.len < k) (hm : s.len < m) :
    State.extractLoop k s = State.extractLoop m s := by
  induction k generalizing m s with
  | zero => omega
  | succ k ih =>
    obtain ⟨m, rfl⟩ := Nat.exists_eq_add_one_of_ne_zero (Nat.ne_zero_of_lt hm)
    by_cases hw : Waits s.step1
    · rw [State.extractLoop_waits k hw, State.extractLoop_waits m hw]
    · have hpass := State.pass_len_lt hw
      rw [State.extractLoop_checks k hw, State.extractLoop_checks m hw]
      exact ih (s := s.pass) (by omega) (by omega)

/-- `Extract` after a pass that does not wait (R143). -/
theorem State.extract_of_checks {s : State} (h : ¬ Waits s.step1) : s.extract = s.pass.extract := by
  rw [State.extract, State.extractLoop_checks _ h]
  exact State.extractLoop_eq_of_lt (State.pass_len_lt h) (Nat.lt_succ_self _)

/-- Induction over the passes of `Extract`: to a pass that waits from a pass that does not. -/
theorem State.extract_induction {P : State → Prop} (waits : ∀ s, Waits s.step1 → P s)
    (checks : ∀ s, ¬ Waits s.step1 → P s.pass → P s) (s : State) : P s := by
  induction hn : s.len using Nat.strong_induction_on generalizing s with
  | _ n ih =>
    by_cases hw : Waits s.step1
    · exact waits s hw
    · exact checks s hw (ih _ (hn ▸ State.pass_len_lt hw) _ rfl)

/-- Settles O37: the last pass waits, and its preamble search has left nothing or a preamble in front. -/
theorem extractEndsByAReturn : Obligations.ExtractEndsByAReturn := by
  intro s
  induction s using State.extract_induction with
  | waits s hw =>
    rw [State.extract_of_waits hw]
    refine ⟨s.step1_cases.imp (fun h => ?_) State.byteAt_zero_eq_some_iff.mpr, hw⟩
    rw [← s.step1.bytes_length, h, List.length_nil]
  | checks s hw ih => rwa [State.extract_of_checks hw]

/-! ### Bytes that come later (R157) -/

/-- `Extract` sees of a state what its preamble search leaves. -/
theorem State.extract_congr_step1 {s t : State} (h : s.step1 = t.step1) : s.extract = t.extract := by
  by_cases hw : Waits s.step1
  · rw [State.extract_of_waits hw, State.extract_of_waits (h ▸ hw), h]
  · have hpass : s.pass = t.pass := by rw [State.pass, State.pass, h]
    rw [State.extract_of_checks hw, State.extract_of_checks (s := t) (h ▸ hw), hpass]

/-- A search that is taken up again when more bytes have come finds what one search finds. -/
theorem dropWhile_append_dropWhile (p : Byte → Bool) (bs cs : List Byte) :
    (bs.dropWhile p ++ cs).dropWhile p = (bs ++ cs).dropWhile p := by
  induction bs with
  | nil => rfl
  | cons b bs ih =>
    by_cases hb : p b
    · simpa [hb] using ih
    · simp [hb]

theorem State.step1_extend_step1 (s : State) (xs : List Byte) :
    (s.step1.setBytes (s.step1.bytes ++ xs)).step1 = (s.setBytes (s.bytes ++ xs)).step1 := by
  rw [State.step1_bytes, State.step1, State.setBytes_bytes, dropWhile_append_dropWhile]
  simp [State.step1]

/-- A search that has found a preamble stands still when more bytes come. -/
theorem State.step1_extend_of_ne_nil {s : State} (h : s.step1.bytes ≠ []) (xs : List Byte) :
    (s.setBytes (s.bytes ++ xs)).step1 = s.step1.setBytes (s.step1.bytes ++ xs) := by
  obtain ⟨rest, hrest⟩ := s.step1_cases.resolve_left h
  rw [← State.step1_extend_step1, hrest, List.cons_append]
  exact State.step1_of_preamble (State.setBytes_bytes _ _)

theorem State.extend_pass {s : State} (hw : ¬ Waits s.step1) (xs : List Byte) :
    ¬ Waits (s.setBytes (s.bytes ++ xs)).step1 ∧
      (s.setBytes (s.bytes ++ xs)).pass = s.pass.setBytes (s.pass.bytes ++ xs) := by
  obtain ⟨hsix, hlen⟩ := not_waits_iff.mp hw
  have hne : s.step1.bytes ≠ [] := by
    rw [← List.length_pos_iff, State.bytes_length]
    omega
  have hlength := State.payloadLength_extend (s := s.step1) xs (by omega)
  rw [State.pass, State.step1_extend_of_ne_nil hne xs, hlength, State.checkCandidate_extend xs hlen]
  constructor
  · rw [not_waits_iff, hlength, State.setBytes_len, List.length_append, State.bytes_length]
    omega
  · have hdrop := List.drop_append_of_le_length (l₂ := xs) (hlen.trans_eq s.step1.bytes_length.symm)
    simp only [State.pass, State.dropFront, State.setBytes_bytes, State.setBytes_setBytes,
      State.checkCandidate_bytes, hdrop]

/-- Bytes appended to what `Extract` has left are as good as bytes appended before it. -/
theorem State.extract_extend_extract (xs : List Byte) (s : State) :
    (s.extract.setBytes (s.extract.bytes ++ xs)).extract = (s.setBytes (s.bytes ++ xs)).extract := by
  induction s using State.extract_induction with
  | waits s hw =>
    rw [State.extract_of_waits hw]
    exact State.extract_congr_step1 (s.step1_extend_step1 xs)
  | checks s hw ih =>
    obtain ⟨hchecks, hpass⟩ := State.extend_pass hw xs
    rw [State.extract_of_checks hw, ih, State.extract_of_checks hchecks, hpass]

/-- The source's `process` of two chunks one after the other is that of the whole (R157). -/
theorem process_process (d₁ d₂ : List Byte) (s : State) : process d₂ (process d₁ s) = process (d₁ ++ d₂) s := by
  rw [process, process, process, State.extract_extend_extract, State.setBytes_bytes, State.setBytes_setBytes,
    List.append_assoc]

end Sys2Proof.Machine
end

section
/-! SUPPORT. The invariant (41_framer.md R155): what one PUSH can do from a state that meets it (R156), that every step
keeps it, and the proofs of the statements about it. -/

namespace Sys2Proof.Machine

open Sys2Proof.Safety

/-! ### The framer's part of the invariant -/

/-- The three cases of R155 are the states in which `Extract` has ended. -/
theorem framerInv_iff {s : State} :
    FramerInv s ↔ (s.len = 0 ∨ s.byteAt 0 = some Config.preamble) ∧ Waits s := by
  have hlen := s.bytes_length
  constructor
  · intro h
    refine ⟨or_iff_not_imp_left.mpr (byteAt_zero_of_framerInv h), ?_⟩
    rcases h with h | ⟨-, -, h⟩ | ⟨b1, b2, rest, hbytes, h⟩
    · exact .inl (by omega)
    · exact .inl (by omega)
    · exact .inr (by rwa [frameLength_eq, payloadLengthOfTheHeader s _ b1 b2 rest hbytes])
  · rintro ⟨h | hhead, hw⟩
    · exact .inl h
    · obtain ⟨rest, hbytes⟩ := State.byteAt_zero_eq_some_iff.mp hhead
      match rest, hbytes with
      | [], hbytes | [_], hbytes =>
        rw [hbytes] at hlen
        simp only [List.length_cons, List.length_nil] at hlen
        exact .inr (.inl ⟨hhead, by omega, by omega⟩)
      | b1 :: b2 :: rest, hbytes =>
        refine .inr (.inr ⟨b1, b2, rest, hbytes, ?_⟩)
        rw [← payloadLengthOfTheHeader s _ b1 b2 rest hbytes, ← frameLength_eq]
        refine hw.elim (fun hsix => ?_) id
        rw [frameLength_eq]
        omega

theorem waits_of_framerInv {s : State} (h : FramerInv s) : Waits s := (framerInv_iff.mp h).2

theorem frameLength_le (len : Len10) : frameLength len ≤ 1029 := by
  have := len.isLt
  rw [frameLength_eq]
  omega

theorem len_le_of_waits {s : State} (h : Waits s) : s.len ≤ 1028 := by
  have := frameLength_le s.payloadLength
  rcases h with h | h <;> omega

/-- Settles O57: a frame that is not complete is shorter than the longest one, and begins with the preamble. -/
theorem invariantBoundsTheBuffer : Obligations.InvariantBoundsTheBuffer := by
  rintro s ⟨-, -, hframer, -⟩
  have hw := waits_of_framerInv hframer
  refine ⟨len_le_of_waits hw, hw, ?_⟩
  rw [State.inFrame, bne_iff_ne]
  refine ⟨byteAt_zero_of_framerInv hframer, fun hhead hzero => ?_⟩
  rw [State.byteAt_eq_none_of_le hzero.le] at hhead
  cases hhead

/-- `Extract` leaves a state that meets the framer's invariant as it is. -/
theorem State.extract_eq_self {s : State} (hwf : s.buf.wf = true) (h : FramerInv s) : s.extract = s := by
  have hstep : s.step1 = s := by
    by_cases hzero : s.len = 0
    · have hnil : s.bytes = [] := List.eq_nil_of_length_eq_zero (s.bytes_length.trans hzero)
      rw [State.step1_of_nil hnil, State.emptyBuffer, ← hnil, State.setBytes_self hwf]
    · exact State.step1_eq_self hwf (byteAt_zero_of_framerInv h hzero)
  rw [State.extract_of_waits (by rw [hstep]; exact waits_of_framerInv h), hstep]

/-! ### One PUSH (R156) -/

/-- A byte that ends the waiting completes the frame being collected, and nothing stands above it. -/
theorem append_completes {s : State} {b : Byte} (hw : Waits s) (hb : ¬ Waits (s.append b)) :
    s.len + 1 = frameLength (s.append b).payloadLength := by
  obtain ⟨hsix, hlen⟩ := not_waits_iff.mp hb
  rw [State.append_len] at hsix hlen
  have hlength : (s.append b).payloadLength = s.payloadLength := State.payloadLength_extend [b] (by omega)
  rw [hlength, frameLength_eq] at hlen ⊢
  rw [Waits, frameLength_eq] at hw
  omega

/-- What a PUSH can do: an OVERFLOW on a full buffer; else its byte is dropped, or appended, or it completes the one
frame that the buffer then is. -/
inductive PushOutcome (s : State) (b : Byte) : State → Prop
  | overflows (hfull : s.len = s.cfg.bufCap) :
    PushOutcome s b ((s.raise .bufferOverflow).setBytes (if b = Config.preamble then [b] else []))
  | drops (hfull : s.len ≠ s.cfg.bufCap) (hempty : s.len = 0) (hb : b ≠ Config.preamble) : PushOutcome s b s
  | collects (hfull : s.len ≠ s.cfg.bufCap) (hhead : (s.append b).byteAt 0 = some Config.preamble)
    (hw : Waits (s.append b)) : PushOutcome s b (s.append b)
  | checks (hfull : s.len ≠ s.cfg.bufCap) (hlen : s.len + 1 = frameLength (s.append b).payloadLength) :
    PushOutcome s b ((s.append b).checkCandidate (s.append b).payloadLength).emptyBuffer

/-- Every PUSH from a state that meets the invariant has one of the four outcomes. -/
theorem exec_push_outcome {s : State} (hwf : s.buf.wf = true) (hframer : FramerInv s) (b : Byte) :
    ∃ t, exec (.push b) s = .next t ∧ PushOutcome s b t := by
  by_cases hfull : s.len = s.cfg.bufCap
  · exact ⟨_, exec_push_of_full hfull b, .overflows hfull⟩
  by_cases hdrop : s.len = 0 ∧ b ≠ Config.preamble
  · obtain ⟨hzero, hb⟩ := hdrop
    have hnil : s.bytes = [] := List.eq_nil_of_length_eq_zero (s.bytes_length.trans hzero)
    have hself : (s.append b).extract = s := by
      rw [State.extract_append_of_nil hnil, if_neg hb, ← hnil, State.setBytes_self hwf]
    exact ⟨s, by rw [exec_push_of_not_full hfull, hself], .drops hfull hzero hb⟩
  have hhead : (s.append b).byteAt 0 = some Config.preamble :=
    append_byteAt_zero_of_framerInv hframer (by simpa using hdrop)
  by_cases hw : Waits (s.append b)
  · exact ⟨_, exec_push_of_waits hfull hhead hw, .collects hfull hhead hw⟩
  · have hlen := append_completes (waits_of_framerInv hframer) hw
    have hextract := State.extract_of_complete (s.append_wf b) hhead ((s.append_len b).trans hlen)
    exact ⟨_, by rw [exec_push_of_not_full hfull, hextract], .checks hfull hlen⟩

theorem pushOutcome_of_exec {s t : State} {b : Byte} (hinv : Inv s) (h : exec (.push b) s = .next t) :
    PushOutcome s b t := by
  obtain ⟨-, hwf, hframer, -⟩ := hinv
  obtain ⟨u, hu, hout⟩ := exec_push_outcome hwf hframer b
  obtain rfl : u = t := Host.Outcome.next.inj (hu.symm.trans h)
  exact hout

/-! ### The last-frame registers (10_state.md R27, R29, R30) -/

/-- The type of a frame that has none is 0 (41_framer.md R151). -/
theorem State.typeOf_cases (s : State) (len : Len10) :
    (2 ≤ len.toNat ∧ (s.typeOf len).2 = true) ∨ (¬ 2 ≤ len.toNat ∧ s.typeOf len = (0#12, false)) := by
  by_cases h : 2 ≤ len.toNat <;> simp [State.typeOf, h]

/-- Whatever they held before, a check leaves the last-frame registers in order. -/
theorem lastFrameInv_checkCandidate (s : State) (len : Len10) : LastFrameInv (s.checkCandidate len) := by
  rcases s.checkCandidate_cases len with ⟨hcrc, h⟩ | ⟨hcrc, h⟩ <;> rw [h]
  · rw [State.step6_eq, hcrc]
    rcases s.typeOf_cases len with ⟨hlen, htype⟩ | ⟨hlen, htype⟩ <;> simp [LastFrameInv, htype, hlen]
  · rw [State.step7_eq]
    simp [LastFrameInv, Ne.symm hcrc]

/-- A check counts modulo `2^CNT_W` (R149, R152) and leaves the buffer as it is. -/
theorem rangeInv_checkCandidate {s : State} (h : RangeInv s) (len : Len10) : RangeInv (s.checkCandidate len) := by
  obtain ⟨hlen, hmsgs, hcrcerr⟩ := h
  rw [RangeInv, State.checkCandidate_len, State.checkCandidate_cfg]
  refine ⟨hlen, ?_⟩
  rcases s.checkCandidate_cases len with ⟨-, h⟩ | ⟨-, h⟩ <;> rw [h]
  · rw [State.step6_eq]
    exact ⟨nextCount_lt _ _, hcrcerr⟩
  · rw [State.step7_eq]
    exact ⟨hmsgs, nextCount_lt _ _⟩

/-! ### Every step keeps the invariant -/

/-- Another content of the buffer, when it is in order itself. -/
theorem inv_setBytes {s : State} (hcfg : s.cfg.WellFormed = true) (hrange : RangeInv s) (hlast : LastFrameInv s)
    {bs : List Byte} (hframer : FramerInv (s.setBytes bs)) (hlen : bs.length ≤ s.cfg.bufCap) :
    Inv (s.setBytes bs) := by
  obtain ⟨-, hcounters⟩ := hrange
  refine ⟨hcfg, s.setBytes_wf bs, hframer, ⟨?_, hcounters⟩, hlast⟩
  rwa [State.setBytes_len]

theorem framerInv_emptyBuffer (s : State) : FramerInv s.emptyBuffer := .inl s.emptyBuffer_len

theorem inv_emptyBuffer {s : State} (hcfg : s.cfg.WellFormed = true) (hrange : RangeInv s)
    (hlast : LastFrameInv s) : Inv s.emptyBuffer :=
  inv_setBytes hcfg hrange hlast (framerInv_emptyBuffer s) (Nat.zero_le _)

/-- A buffer with at most a preamble in it (R141). -/
theorem framerInv_first (s : State) (b : Byte) :
    FramerInv (s.setBytes (if b = Config.preamble then [b] else [])) := by
  split
  case isTrue hb =>
    subst hb
    exact .inr (.inl ⟨State.byteAt_zero_eq_some_iff.mpr ⟨[], s.setBytes_bytes _⟩, by simp⟩)
  case isFalse => exact framerInv_emptyBuffer s

theorem inv_pushOutcome {s t : State} {b : Byte} (hinv : Inv s) (h : PushOutcome s b t) : Inv t := by
  have hkeep := hinv
  obtain ⟨hcfg, hwf, hframer, hrange, hlast⟩ := hinv
  have hroom : s.len ≠ s.cfg.bufCap → s.len + 1 ≤ s.cfg.bufCap := by
    obtain ⟨hlen, -⟩ := hrange
    omega
  cases h with
  | overflows =>
    obtain ⟨hcfg, -, -, hrange, hlast⟩ : Inv (s.raise .bufferOverflow) :=
      show Inv s.emptyBuffer from inv_emptyBuffer hcfg hrange hlast
    refine inv_setBytes hcfg hrange hlast (framerInv_first _ b) ?_
    have hone : (if b = Config.preamble then [b] else []).length ≤ 1 := by split <;> simp
    exact hone.trans (bufCap_ge_six hcfg |>.trans' (by decide))
  | drops => exact hkeep
  | collects hfull hhead hw =>
    exact inv_setBytes hcfg hrange hlast (framerInv_iff.mpr ⟨.inr hhead, hw⟩)
      (by rw [List.length_append, s.bytes_length]; exact hroom hfull)
  | checks hfull =>
    obtain ⟨-, hcounters⟩ := hrange
    have happend : RangeInv (s.append b) := ⟨(s.append_len b).trans_le (hroom hfull), hcounters⟩
    refine inv_emptyBuffer ?_ (rangeInv_checkCandidate happend _) (lastFrameInv_checkCandidate _ _)
    rwa [State.checkCandidate_cfg, State.append_cfg]

theorem inv_clear {s : State} (hcfg : s.cfg.WellFormed = true) : Inv s.clear :=
  ⟨hcfg, s.clear_wf, .inl s.clear_len, ⟨Nat.zero_le _, Nat.two_pow_pos _, Nat.two_pow_pos _⟩, by
    simp [LastFrameInv, hdrType]⟩

theorem inv_exec {s t : State} {i : Instr} (hinv : Inv s) (h : exec i s = .next t) : Inv t := by
  cases i with
  | push b => exact inv_pushOutcome hinv (pushOutcome_of_exec hinv h)
  | flush =>
    cases h
    obtain ⟨hcfg, -, -, hrange, hlast⟩ := hinv
    exact inv_emptyBuffer hcfg hrange hlast
  | srst =>
    cases h
    obtain ⟨hcfg, -⟩ := hinv
    exact inv_clear hcfg
  | nop | crcClr | crcUpd | rdreg => cases h; exact hinv

/-- Settles O56: PUSH has four outcomes that keep it, the other commands write no element it speaks of or reset them. -/
theorem everyStepKeepsTheInvariant : Obligations.EveryStepKeepsTheInvariant := by
  intro s t hinv hstep
  have hcfg : s.cfg.WellFormed = true := And.left hinv
  rcases step_cases hstep with ⟨_, rfl⟩ | ⟨w, rest, i, _, _, he⟩ | ⟨w, rest, e, _, _, rfl⟩ | ⟨rest, _, rfl⟩ |
    ⟨rest, _, rfl⟩ | ⟨rest, _, rfl⟩
  · exact hinv
  · exact inv_exec (s := s.accept rest) hinv he
  · exact hinv
  · exact inv_clear (s := s) hcfg
  · exact hinv
  · exact hinv

theorem config_initial_wellFormed : Config.initial.WellFormed = true := by
  have hdump : Config.openDumpMax.val ≤ 1029 := Nat.le_of_lt_succ Config.openDumpMax.isLt
  simp [Config.WellFormed, Config.bufCapLegal, Config.cntWLegal, Config.dumpMaxLegal, Config.initial, hdump]

/-- Settles O55: the state at reset is a cleared one. -/
theorem invariantHoldsAtReset : Obligations.InvariantHoldsAtReset :=
  inv_clear (s := State.reset) config_initial_wellFormed

end Sys2Proof.Machine
end

section
/-! SUPPORT. One PUSH and a sequence of PUSHes by the outcomes of a PUSH (41_framer.md section 4), and the proofs of the
statements about them. -/

namespace Sys2Proof.Machine

open Sys2Proof.Safety

/-! ### One PUSH -/

/-- Settles O26: the first byte stays when it is the preamble and is dropped when not. -/
theorem pushOnAnEmptyBuffer : Obligations.PushOnAnEmptyBuffer := by
  intro s b hzero hcap
  have hnil : s.bytes = [] := List.eq_nil_of_length_eq_zero (s.bytes_length.trans hzero)
  rw [exec_push_of_not_full (hzero ▸ hcap.symm), State.extract_append_of_nil hnil]
  by_cases hb : b = 0xD3#8
  · rw [if_pos hb, if_pos hb]
    rfl
  · rw [if_neg hb, if_neg hb]
    rfl

theorem State.append_eq_of_wf {s : State} (h : s.buf.wf = true) (b : Byte) :
    s.append b = { s with buf := s.buf ++ [(s.len, b)] } := by
  rw [← State.append_buf_of_wf h]
  rfl

/-- Settles O27: a PUSH that waits is an append, which adds one cell at `LEN`. -/
theorem pushCollectsAnIncompleteFrame : Obligations.PushCollectsAnIncompleteFrame := by
  rintro s b ⟨-, hwf, hframer, -⟩ hne hfull hw
  have hhead := append_byteAt_zero_of_framerInv (b := b) hframer (absurd · hne)
  rw [exec_push_of_waits hfull hhead hw, State.append_eq_of_wf hwf]

/-- Settles O38: the four outcomes of a PUSH, each with its event. -/
theorem onePushDoesLittle : Obligations.OnePushDoesLittle := by
  rintro s b ⟨-, hwf, hframer, -⟩
  obtain ⟨t, hexec, hout⟩ := exec_push_outcome hwf hframer b
  refine ⟨t, hexec, ?_⟩
  cases hout with
  | overflows hfull =>
    have hone : ((s.raise .bufferOverflow).setBytes (if b = Config.preamble then [b] else [])).len ≤ 1 := by
      rw [State.setBytes_len]
      split <;> simp
    exact .inr (.inr (.inr ⟨_, rfl, rfl, hfull, hone, rfl, rfl, rfl, rfl, rfl, rfl, rfl⟩))
  | drops _ hzero hb => exact .inl ⟨rfl, hzero, hb⟩
  | collects => exact .inr (.inl (State.append_eq_of_wf hwf b))
  | checks _ hlen =>
    obtain ⟨e, he, hemit, -⟩ := (s.append b).checkCandidate_emits (s.append b).payloadLength
    refine .inr (.inr (.inl ⟨e, he, ?_, State.emptyBuffer_len _, ?_, hlen⟩))
    · rw [State.emptyBuffer_out, hemit, State.append_out]
    · rw [State.emptyBuffer_ovf, State.checkCandidate_ovf, State.append_ovf]

/-- A full buffer holds the beginning of a frame that is longer than `BUF_CAP`. -/
theorem overlong_of_full {s : State} (hinv : Inv s) (hfull : s.len = s.cfg.bufCap) :
    s.byteAt 0 = some Config.preamble ∧ s.cfg.bufCap < frameLength s.payloadLength := by
  obtain ⟨hcfg, -, hframer, -⟩ := hinv
  have hcap := bufCap_ge_six hcfg
  refine ⟨byteAt_zero_of_framerInv hframer (by omega), hfull ▸ ?_⟩
  exact (waits_of_framerInv hframer).resolve_left (by omega)

/-- A PUSH emits OVERFLOW exactly when the buffer is full. -/
theorem overflow_mem_iff {s t : State} {b : Byte} (h : PushOutcome s b t) :
    (∃ d, .evt (.overflow d) ∈ t.out.drop s.out.length) ↔ s.len = s.cfg.bufCap := by
  cases h with
  | overflows hfull =>
    refine iff_of_true ⟨zext32 s.cfg.bufCap, ?_⟩ hfull
    have hout : ((s.raise .bufferOverflow).setBytes (if b = Config.preamble then [b] else [])).out =
        s.out ++ [.evt (.overflow (zext32 s.cfg.bufCap))] := rfl
    rw [hout, List.drop_left]
    exact List.mem_singleton_self _
  | drops hfull => simp [hfull]
  | collects hfull => simp [hfull]
  | checks hfull =>
    obtain ⟨e, he, hemit, -⟩ := (s.append b).checkCandidate_emits (s.append b).payloadLength
    refine iff_of_false ?_ hfull
    rintro ⟨d, hd⟩
    rw [State.emptyBuffer_out, hemit, State.append_out, List.drop_left, List.mem_singleton, OutItem.evt.injEq] at hd
    subst hd
    simp [isDecoded, isCrcFail] at he

/-- Settles O43: OVERFLOW comes from a full buffer alone, and a buffer of 1029 bytes is never full. -/
theorem overflowNeverAtTheDefaultCap : Obligations.OverflowNeverAtTheDefaultCap := by
  intro s t b hinv hexec
  have hbound : s.len ≤ 1028 := (invariantBoundsTheBuffer s hinv).1
  refine ⟨(overflow_mem_iff (pushOutcome_of_exec hinv hexec)).trans ⟨fun hfull => ?_, And.left⟩, fun hfull => ?_,
    fun hcap => ?_⟩
  · exact ⟨hfull, overlong_of_full hinv hfull⟩
  · omega
  · rw [exec_push_of_not_full (by omega)] at hexec
    cases hexec
    exact State.extract_ovf _

/-- The header a check writes holds the fields of the event it emits (41_framer.md R149, R152). -/
theorem checkCandidate_lasthdr {s : State} {len : Len10} {e : Event}
    (h : (s.checkCandidate len).out = s.out ++ [.evt e]) :
    (s.checkCandidate len).lasthdr = packLastHdr e.crcOkField e.typeValidField e.typeField e.lenField := by
  rcases s.checkCandidate_cases len with ⟨_, hc⟩ | ⟨_, hc⟩ <;> rw [hc] at h ⊢
  · rw [State.step6_eq] at h ⊢
    obtain rfl := OutItem.evt.inj (List.singleton_inj.mp (List.append_cancel_left h))
    rfl
  · rw [State.step7_eq] at h ⊢
    obtain rfl := OutItem.evt.inj (List.singleton_inj.mp (List.append_cancel_left h))
    rfl

/-- Settles O51: of the outcomes of a PUSH only a check emits such an event, and its fields are those of `LASTHDR`. -/
theorem eventWordZeroIsLastHdr : Obligations.EventWordZeroIsLastHdr := by
  intro s t b e hinv hexec hout he
  rw [Event.w0_eq_packLastHdr]
  cases pushOutcome_of_exec hinv hexec with
  | overflows =>
    obtain rfl := OutItem.evt.inj (List.singleton_inj.mp (List.append_cancel_left hout))
    simp [isDecoded, isCrcFail, State.faultEvent] at he
  | drops => simp at hout
  | collects => simp at hout
  | checks =>
    rw [State.emptyBuffer_out, ← s.append_out b] at hout
    rw [State.emptyBuffer_lasthdr, checkCandidate_lasthdr hout]

/-! ### A sequence of PUSHes (42_system.md R184) -/

theorem execAll_append_of_next {is : List Instr} {s t : State} (h : execAll is s = .next t) (js : List Instr) :
    execAll (is ++ js) s = execAll js t := by
  induction is generalizing s with
  | nil => cases h; rfl
  | cons i is ih =>
    obtain ⟨u, -, hexec, -⟩ := exec_sends i s
    rw [List.cons_append, execAll_cons_of_next hexec]
    rw [execAll_cons_of_next hexec] at h
    exact ih h

theorem execAll_pushs_append_one {bs : List Byte} {b : Byte} {s t u : State}
    (h : execAll (expandPushs bs) s = .next t) (hb : exec (.push b) t = .next u) :
    execAll (expandPushs (bs ++ [b])) s = .next u := by
  rw [expandPushs, List.map_append]
  exact (execAll_append_of_next h _).trans (execAll_cons_of_next hb [])

theorem countEvents_append (p : Event → Bool) (xs ys : List OutItem) :
    countEvents p (xs ++ ys) = countEvents p xs + countEvents p ys := by
  induction xs with
  | nil => simp [countEvents]
  | cons x xs ih =>
    cases x with
    | rsp v => exact ih
    | evt e => rw [List.cons_append, countEvents, countEvents, ih, Nat.add_assoc]

/-- One PUSH is the source's `process` of its byte, or reports an overflow. -/
theorem exec_push_process {s : State} {b : Byte} :
    ∃ t, exec (.push b) s = .next t ∧ countEvents isOverflow s.out ≤ countEvents isOverflow t.out ∧
      (countEvents isOverflow t.out = countEvents isOverflow s.out → t = process [b] s) := by
  by_cases hfull : s.len = s.cfg.bufCap
  · refine ⟨_, exec_push_of_full hfull b, ?_⟩
    have hcount : countEvents isOverflow
        ((s.raise .bufferOverflow).setBytes (if b = Config.preamble then [b] else [])).out =
          countEvents isOverflow s.out + 1 := countEvents_append isOverflow s.out [_]
    omega
  · obtain ⟨new, h⟩ := sends_extract (s.append b)
    refine ⟨_, exec_push_of_not_full hfull b, ?_, fun _ => rfl⟩
    rw [h.out, State.append_out, countEvents_append]
    omega

/-- PUSHS is the source's `process`, unless one of its PUSHes reports an overflow. -/
theorem execAll_pushs_process {s : State} (hinv : Inv s) (data : List Byte) :
    ∃ t, execAll (expandPushs data) s = .next t ∧ countEvents isOverflow s.out ≤ countEvents isOverflow t.out ∧
      (countEvents isOverflow t.out = countEvents isOverflow s.out → t = process data s) := by
  induction data generalizing s with
  | nil =>
    refine ⟨s, rfl, le_rfl, fun _ => ?_⟩
    obtain ⟨-, hwf, hframer, -⟩ := hinv
    rw [process, List.append_nil, State.setBytes_self hwf, State.extract_eq_self hwf hframer]
  | cons b data ih =>
    obtain ⟨u, hexec, hle, hone⟩ := exec_push_process (s := s) (b := b)
    obtain ⟨t, hrest, hle', hdata⟩ := ih (inv_exec hinv hexec)
    refine ⟨t, (execAll_cons_of_next hexec _).trans hrest, hle.trans hle', fun heq => ?_⟩
    rw [hdata (by omega), hone (by omega), process_process, List.singleton_append]

/-- Settles O42: byte by byte each PUSH is `process` of its byte, and `process` composes. -/
theorem chunkingInvariance : Obligations.ChunkingInvariance := by
  intro s data hinv
  obtain ⟨t, hexec, -, hprocess⟩ := execAll_pushs_process hinv data
  refine ⟨⟨t, hexec, hprocess⟩, ?_⟩
  rintro d₁ d₂ rfl
  exact process_process d₁ d₂ s

/-! ### The PUSHes of a frame (41_framer.md section 4) -/

section Frame

variable {res : BitVec 6} {len : Len10} {payload : List Byte} {rx : Crc24} {rest : List Byte}
  (hpayload : payload.length = len.toNat) (hrest : rest ≠ [])

include hpayload hrest

/-- A buffer that holds a frame but for its last bytes waits for them. -/
theorem waits_of_frame_front {s : State} (h : s.bytes ++ rest = frame res len payload rx) : Waits s := by
  by_cases hsix : s.len < 6
  · exact .inl hsix
  right
  have hbytes := (s.setBytes_bytes (s.bytes ++ rest)).trans h
  have hframe := State.len_of_frame hpayload hbytes
  have hlength := State.payloadLength_of_frame hbytes
  have hpos := List.length_pos_iff.mpr hrest
  rw [State.setBytes_len, List.length_append, s.bytes_length] at hframe
  rw [State.payloadLength_extend rest (by omega)] at hlength
  rw [hlength]
  omega

/-- The PUSHes of a frame but for its last bytes collect them, from an empty buffer. -/
theorem execAll_pushs_of_frame_front {s : State} (hzero : s.len = 0) (hcap : len.toNat + 6 ≤ s.cfg.bufCap)
    {bs : List Byte} (h : bs ++ rest = frame res len payload rx) :
    execAll (expandPushs bs) s = .next (s.setBytes bs) := by
  induction bs using List.reverseRecOn generalizing rest with
  | nil =>
    have hbuf : s.buf = [] := List.eq_nil_of_length_eq_zero hzero
    have hself := State.setBytes_self (s := s) (by rw [hbuf]; rfl)
    rw [State.bytes, hbuf] at hself
    exact congrArg Host.Outcome.next hself.symm
  | append_singleton bs b ih =>
    rw [List.append_assoc, List.singleton_append] at h
    have hbytes : ((s.setBytes bs).append b).bytes ++ rest = frame res len payload rx := by
      rw [State.append_bytes, State.setBytes_bytes, List.append_assoc, List.singleton_append, h]
    have hlt : bs.length < len.toNat + 6 := by
      have hlength := congrArg List.length h
      rw [frame, List.length_append, List.length_append, frameBody_length, hpayload, crcTrailer] at hlength
      simp only [List.length_cons, List.length_nil] at hlength
      omega
    have hhead : ((s.setBytes bs).append b).byteAt 0 = some Config.preamble := by
      rw [State.byteAt, ← List.getElem?_append_left (l₂ := rest) (by simp), hbytes]
      rfl
    have hpush := exec_push_of_waits (s := s.setBytes bs) (b := b)
      (by rw [State.setBytes_len, State.setBytes_cfg]; omega) hhead (waits_of_frame_front hpayload hrest hbytes)
    rw [execAll_pushs_append_one (ih (List.cons_ne_nil b rest) h) hpush, State.append, State.setBytes_bytes,
      State.setBytes_setBytes]

end Frame

/-- Settles O44: all bytes but the last are collected, and the last one completes the frame. -/
theorem wellFormedFrameIsDecoded : Obligations.WellFormedFrameIsDecoded := by
  intro s res len payload hpayload hzero hcap
  have hlength := State.len_of_frame (s := s.setBytes (frame res len payload (crc24q (frameBody res len payload))))
    hpayload (State.setBytes_bytes _ _)
  obtain hnil | ⟨bs, b, hframe⟩ := List.eq_nil_or_concat' (frame res len payload (crc24q (frameBody res len payload)))
  · cases hnil
  rw [State.setBytes_len, hframe, List.length_append, List.length_singleton, frameLength_eq] at hlength
  have hfull : (s.setBytes bs).len ≠ (s.setBytes bs).cfg.bufCap := by
    rw [State.setBytes_len, State.setBytes_cfg]
    omega
  have hbytes : ((s.setBytes bs).append b).bytes = frame res len payload (crc24q (frameBody res len payload)) := by
    rw [State.append_bytes, State.setBytes_bytes, hframe]
  have hcollect := execAll_pushs_of_frame_front hpayload (List.cons_ne_nil b []) hzero hcap hframe.symm
  rw [hframe, execAll_pushs_append_one hcollect (exec_push_of_frame hfull hpayload hbytes),
    State.checkCandidate_of_goodFrame hpayload hbytes rfl]
  rfl

end Sys2Proof.Machine
end

section
/-! SUPPORT. The independence of the two units (41_framer.md section 2), which command writes which element
(10_state.md section 12), what the counters count (60_exceptions.md section 7), and the proofs of the statements about
them. -/

namespace Sys2Proof.Machine

open Sys2Proof.Safety

/-! ### PUSH under another accumulator -/

/-- The state with `ACC` at `a`. -/
def State.withAcc (s : State) (a : Crc24) : State := { s with acc := a }

theorem State.overflowCheck_withAcc (s : State) (a : Crc24) :
    (s.withAcc a).overflowCheck = s.overflowCheck.withAcc a :=
  (apply_ite (State.withAcc · a) (s.len = s.cfg.bufCap) (s.raise .bufferOverflow) s).symm

theorem State.checkCandidate_withAcc (s : State) (a : Crc24) (len : Len10) :
    (s.withAcc a).checkCandidate len = (s.checkCandidate len).withAcc a := by
  have hcalc : (s.withAcc a).calcCrc (frameLength len) = s.calcCrc (frameLength len) := rfl
  have hrx : (s.withAcc a).rxCrc (frameLength len) = s.rxCrc (frameLength len) := rfl
  rw [State.checkCandidate, State.checkCandidate, hcalc, hrx]
  split
  · rw [State.step6_eq, State.step6_eq]
    rfl
  · rw [State.step7_eq, State.step7_eq]
    rfl

theorem State.dropFront_withAcc (s : State) (a : Crc24) (k : Nat) :
    (s.withAcc a).dropFront k = (s.dropFront k).withAcc a := rfl

theorem State.pass_withAcc (s : State) (a : Crc24) : (s.withAcc a).pass = s.pass.withAcc a := by
  have hstep : (s.withAcc a).step1 = s.step1.withAcc a := rfl
  have hlength : (s.step1.withAcc a).payloadLength = s.step1.payloadLength := rfl
  rw [State.pass, hstep, hlength, State.checkCandidate_withAcc, State.dropFront_withAcc, State.pass]

/-- The loop neither reads nor writes `ACC`. -/
theorem State.extract_withAcc (a : Crc24) (s : State) : (s.withAcc a).extract = s.extract.withAcc a := by
  induction s using State.extract_induction with
  | waits s hw =>
    rw [State.extract_of_waits hw]
    exact State.extract_of_waits (s := s.withAcc a) hw
  | checks s hw ih =>
    have hother : ¬ Waits (s.withAcc a).step1 := hw
    rw [State.extract_of_checks hw, State.extract_of_checks hother, State.pass_withAcc, ih]

/-- PUSH does under any accumulator what it does under `s.acc`. -/
theorem exec_push_withAcc {s t : State} {b : Byte} (h : exec (.push b) s = .next t) (a : Crc24) :
    exec (.push b) (s.withAcc a) = .next (t.withAcc a) := by
  cases h
  rw [exec_push, State.overflowCheck_withAcc]
  exact congrArg Host.Outcome.next (State.extract_withAcc a (s.overflowCheck.append b))

/-- Settles O41: PUSH carries any accumulator along, the one that CRC.UPD has made too. -/
theorem unitsAreIndependent : Obligations.UnitsAreIndependent := by
  intro s b c
  obtain ⟨t, -, hexec, hacc, -⟩ := pushFrame s b
  refine ⟨fun a => ⟨t, hexec, exec_push_withAcc hexec a⟩, ?_⟩
  calc execAll [.push b, .crcUpd c] s
    _ = .next (t.withAcc (crcStep t.acc c)) := execAll_cons_of_next hexec [.crcUpd c]
    _ = .next (t.withAcc (crcStep s.acc c)) := by rw [hacc]
    _ = execAll [.push b] (s.withAcc (crcStep s.acc c)) :=
      (execAll_cons_of_next (exec_push_withAcc hexec _) []).symm
    _ = execAll [.crcUpd c, .push b] s := (execAll_cons_of_next (exec_crcUpd c s) [.push b]).symm

/-! ### The writers of each element -/

/-- Which commands may write which element: SRST apart, as in 10_state.md section 12. -/
structure WritesOf (i : Instr) (s t : State) : Prop where
  acc : t.acc ≠ s.acc → i = .crcClr ∨ ∃ b, i = .crcUpd b
  buf : t.buf ≠ s.buf → i = .flush ∨ ∃ b, i = .push b
  framer : t.msgs ≠ s.msgs ∨ t.crcerr ≠ s.crcerr ∨ t.ovf ≠ s.ovf ∨ t.lastv ≠ s.lastv ∨ t.lasthdr ≠ s.lasthdr ∨
    t.lastrx ≠ s.lastrx ∨ t.lastcalc ≠ s.lastcalc → ∃ b, i = .push b
  ill : t.ill = s.ill
  out : t.out ≠ s.out → (∃ b, i = .push b) ∨ ∃ r, i = .rdreg r
  cfg : t.cfg = s.cfg

theorem writesOf_exec {i : Instr} {s t : State} (h : exec i s = .next t) (hi : i ≠ .srst) : WritesOf i s t := by
  cases i with
  | push b =>
    obtain ⟨u, new, hexec, hacc, hill, hcfg, -⟩ := pushFrame s b
    obtain rfl : u = t := Host.Outcome.next.inj (hexec.symm.trans h)
    exact ⟨(absurd hacc ·), fun _ => .inr ⟨b, rfl⟩, fun _ => ⟨b, rfl⟩, hill, fun _ => .inl ⟨b, rfl⟩, hcfg⟩
  | srst => exact absurd rfl hi
  | nop | flush | crcClr | crcUpd | rdreg => cases h; constructor <;> simp

/-- Settles O48: the writers among the commands, and a reserved encoding's fault; nothing else writes an element. -/
theorem writersOfEachElement : Obligations.WritersOfEachElement := by
  intro s t hstep hreset hsrst
  rcases step_cases hstep with ⟨_, rfl⟩ | ⟨w, rest, i, hin, hd, he⟩ | ⟨w, rest, e, hin, hd, rfl⟩ | ⟨rest, hin, _⟩ |
    ⟨rest, _, rfl⟩ | ⟨rest, _, rfl⟩
  · simp
  · have hoffered (j : Instr) (hj : i = j) : Offered s (.ok j) := ⟨w, rest, hin, hj ▸ hd⟩
    obtain ⟨hacc, hbuf, hframer, hill, hout, hcfg⟩ := writesOf_exec he (hsrst <| hoffered .srst ·)
    refine ⟨fun h => ?_, fun h => ?_, fun h => ?_, fun h => absurd hill h, fun h => ?_, hcfg⟩
    · exact (hacc h).imp (hoffered _) fun ⟨b, hb⟩ => ⟨b, hoffered _ hb⟩
    · exact (hbuf h).imp (hoffered _) fun ⟨b, hb⟩ => ⟨b, hoffered _ hb⟩
    · exact (hframer h).imp fun b => hoffered (.push b)
    · exact (hout h).imp (fun ⟨b, hb⟩ => ⟨b, hoffered _ hb⟩) fun ⟨r, hr⟩ => .inl ⟨r, hoffered _ hr⟩
  · have hoffered : Offered s (.error e) := ⟨w, rest, hin, hd⟩
    simpa [State.raise_illegalCommand] using ⟨fun _ => ⟨e, hoffered⟩, .inr (.inr ⟨e, hoffered⟩)⟩
  · exact absurd ⟨rest, hin⟩ hreset
  · simp
  · simp

/-! ### The counters -/

/-- `t` has the trace of `s` and after it items of which the two counters have counted the DECODED and the CRCFAIL
events, modulo `2^CNT_W`. -/
structure Counts (s t : State) (new : List OutItem) : Prop where
  cfg : t.cfg = s.cfg
  out : t.out = s.out ++ new
  msgs : t.msgs ≡ s.msgs + countEvents isDecoded new [MOD 2 ^ s.cfg.cntW]
  crcerr : t.crcerr ≡ s.crcerr + countEvents isCrcFail new [MOD 2 ^ s.cfg.cntW]

/-- An update that leaves the trace and the counters alone. -/
theorem Counts.of_eq {s t : State} (hcfg : t.cfg = s.cfg) (hout : t.out = s.out) (hmsgs : t.msgs = s.msgs)
    (hcrcerr : t.crcerr = s.crcerr) : Counts s t [] :=
  ⟨hcfg, by simpa using hout, by rw [hmsgs]; rfl, by rw [hcrcerr]; rfl⟩

theorem Counts.trans {s t u : State} {xs ys : List OutItem} (h : Counts s t xs) (k : Counts t u ys) :
    Counts s u (xs ++ ys) := by
  have kmsgs := k.msgs
  have kcrcerr := k.crcerr
  rw [h.cfg] at kmsgs kcrcerr
  refine ⟨k.cfg.trans h.cfg, by rw [k.out, h.out, List.append_assoc], ?_, ?_⟩
  · rw [countEvents_append, ← Nat.add_assoc]
    exact kmsgs.trans (h.msgs.add_right _)
  · rw [countEvents_append, ← Nat.add_assoc]
    exact kcrcerr.trans (h.crcerr.add_right _)

theorem nextCount_modEq (w n : Nat) : nextCount w n ≡ n + 1 [MOD 2 ^ w] := Nat.mod_modEq _ _

theorem counts_raise (s : State) (f : FaultInfo) : Counts s (s.raise f) [.evt (s.faultEvent f)] := by
  cases f with
  | crcMismatch => exact ⟨rfl, rfl, .rfl, nextCount_modEq _ _⟩
  | bufferOverflow | illegalCommand => exact ⟨rfl, rfl, .rfl, .rfl⟩

theorem counts_checkCandidate (s : State) (len : Len10) : ∃ new, Counts s (s.checkCandidate len) new := by
  rcases s.checkCandidate_cases len with ⟨-, h⟩ | ⟨-, h⟩ <;> rw [h]
  · rw [State.step6_eq]
    exact ⟨[_], rfl, rfl, nextCount_modEq _ _, .rfl⟩
  · exact ⟨_, counts_raise s _⟩

theorem counts_overflowCheck (s : State) : ∃ new, Counts s s.overflowCheck new := by
  rcases s.overflowCheck_cases with ⟨-, h⟩ | ⟨-, h⟩ <;> rw [h]
  · exact ⟨_, counts_raise s _⟩
  · exact ⟨[], .of_eq rfl rfl rfl rfl⟩

theorem counts_setBytes (s : State) (bs : List Byte) : Counts s (s.setBytes bs) [] := .of_eq rfl rfl rfl rfl

theorem counts_extract (s : State) : ∃ new, Counts s s.extract new := by
  refine State.extract_keeps (P := fun t => ∃ new, Counts s t new) ?search ?check ⟨[], .of_eq rfl rfl rfl rfl⟩
  case search =>
    rintro t ⟨new, h⟩
    exact ⟨_, h.trans (counts_setBytes t _)⟩
  case check =>
    rintro t ⟨new, h⟩ -
    obtain ⟨more, hcheck⟩ := counts_checkCandidate t t.payloadLength
    exact ⟨_, (h.trans hcheck).trans (counts_setBytes _ _)⟩

theorem counts_exec {i : Instr} {s t : State} (h : exec i s = .next t) (hi : i ≠ .srst) : ∃ new, Counts s t new := by
  cases i with
  | push b =>
    cases h
    obtain ⟨xs, hcheck⟩ := counts_overflowCheck s
    obtain ⟨ys, hextract⟩ := counts_extract (s.overflowCheck.append b)
    exact ⟨_, (hcheck.trans (counts_setBytes _ _)).trans hextract⟩
  | rdreg r => cases h; exact ⟨[.rsp _], rfl, rfl, .rfl, .rfl⟩
  | srst => exact absurd rfl hi
  | nop | flush | crcClr | crcUpd => cases h; exact ⟨[], .of_eq rfl rfl rfl rfl⟩

/-- Settles O49: the check of a candidate counts the event it emits, and nothing else writes a counter. -/
theorem countersCountTheEvents : Obligations.CountersCountTheEvents := by
  intro s t hstep hreset hsrst
  suffices h : ∃ new, Counts s t new by
    obtain ⟨new, -, hout, hmsgs, hcrcerr⟩ := h
    exact ⟨new, hout, hmsgs, hcrcerr⟩
  rcases step_cases hstep with ⟨_, rfl⟩ | ⟨w, rest, i, hin, hd, he⟩ | ⟨w, rest, e, _, _, rfl⟩ | ⟨rest, hin, _⟩ |
    ⟨rest, _, rfl⟩ | ⟨rest, _, rfl⟩
  · exact ⟨[], .of_eq rfl rfl rfl rfl⟩
  · have haccept : Counts s (s.accept rest) [] := .of_eq rfl rfl rfl rfl
    obtain ⟨new, h⟩ := counts_exec he fun hi => hsrst ⟨w, rest, hin, hi ▸ hd⟩
    exact ⟨_, haccept.trans h⟩
  · have haccept : Counts s (s.accept rest) [] := .of_eq rfl rfl rfl rfl
    exact ⟨_, haccept.trans (counts_raise _ _)⟩
  · exact absurd ⟨rest, hin⟩ hreset
  · exact ⟨[], .of_eq rfl rfl rfl rfl⟩
  · exact ⟨[], .of_eq rfl rfl rfl rfl⟩

end Sys2Proof.Machine
end

section
/-! SUPPORT. The byte update as a linear map over GF(2) that loses nothing (40_crc_engine.md section 3), and the proofs
of the statements about it. -/

namespace Sys2Proof.Machine

open Sys2Proof.Safety

/-- Settles O7: the model's steps from the loaded value are the loop's, and stay below `2^24`. -/
theorem crcMaskDropsNothing : Obligations.CrcMaskDropsNothing := by
  intro a b k _
  rw [← crcLoad_toNat]
  exact crcShifts_toNat k (crcLoad_lt a b)

/-! ### Linearity -/

/-- One step as a shift and the generator when the shift has brought a bit to place 24. -/
theorem crcShift_eq (t : BitVec 25) :
    crcShift t = t <<< 1 ^^^ if (t <<< 1).getLsbD 24 then Config.poly else 0#25 := by
  rw [crcShift]
  split <;> simp

theorem xor_xor_xor_comm {n : Nat} (a b c d : BitVec n) : (a ^^^ b) ^^^ (c ^^^ d) = (a ^^^ c) ^^^ (b ^^^ d) := by
  ac_rfl

/-- A bit of a sum of bits selects a vector or not. -/
theorem ite_xor_bit {n : Nat} (x y : Bool) (g : BitVec n) :
    (if x ^^ y then g else 0#n) = (if x then g else 0#n) ^^^ if y then g else 0#n := by
  cases x <;> cases y <;> simp

theorem crcShift_xor (t u : BitVec 25) : crcShift (t ^^^ u) = crcShift t ^^^ crcShift u := by
  rw [crcShift_eq, crcShift_eq, crcShift_eq, BitVec.shiftLeft_xor_distrib, BitVec.getLsbD_xor, ite_xor_bit,
    xor_xor_xor_comm]

theorem crcShifts_xor (k : Nat) (t u : BitVec 25) : crcShifts k (t ^^^ u) = crcShifts k t ^^^ crcShifts k u := by
  induction k generalizing t u with
  | zero => rfl
  | succ k ih => rw [crcShifts, crcShift_xor, ih, crcShifts, crcShifts]

theorem crcStep_xor (a a' : Crc24) (b b' : Byte) :
    crcStep (a ^^^ a') (b ^^^ b') = crcStep a b ^^^ crcStep a' b' := by
  have hload : (a ^^^ a') ^^^ ((b ^^^ b').setWidth 24 <<< 16) =
      (a ^^^ (b.setWidth 24 <<< 16)) ^^^ (a' ^^^ (b'.setWidth 24 <<< 16)) := by
    rw [BitVec.setWidth_xor, BitVec.shiftLeft_xor_distrib, xor_xor_xor_comm]
  rw [crcStep, hload, BitVec.setWidth_xor, crcShifts_xor, BitVec.setWidth_xor, crcStep, crcStep]

theorem crcFrom_zipWith_xor {s t : List Byte} (h : s.length = t.length) (a a' : Crc24) :
    crcFrom (a ^^^ a') (List.zipWith (· ^^^ ·) s t) = crcFrom a s ^^^ crcFrom a' t := by
  induction s generalizing t a a' with
  | nil =>
    obtain rfl := List.eq_nil_of_length_eq_zero h.symm
    rfl
  | cons b s ih =>
    match t, h with
    | b' :: t, h =>
      rw [List.zipWith_cons_cons, crcFrom_cons, crcFrom_cons, crcFrom_cons, crcStep_xor, ih (Nat.succ.inj h)]

theorem crc24q_zipWith_xor {s t : List Byte} (h : s.length = t.length) :
    crc24q (List.zipWith (· ^^^ ·) s t) = crc24q s ^^^ crc24q t :=
  crcFrom_zipWith_xor h 0#24 0#24

/-! ### Nothing but 0 gives 0 -/

/-- The generator has bit 0, where a shift leaves none, so XORing it in gives no 0. -/
theorem crcShift_eq_zero {t : BitVec 25} (ht : t.toNat < 2 ^ 24) (h : crcShift t = 0#25) : t = 0#25 := by
  rw [crcShift_eq] at h
  split at h
  · have hbit := congrArg (BitVec.getLsbD · 0) h
    simp at hbit
    exact absurd hbit (by decide)
  · apply BitVec.eq_of_toNat_eq
    have hnat := congrArg BitVec.toNat h
    simp only [BitVec.xor_zero, BitVec.toNat_shiftLeft, Nat.shiftLeft_eq, BitVec.toNat_ofNat] at hnat ⊢
    omega

theorem crcShifts_eq_zero {k : Nat} {t : BitVec 25} (ht : t.toNat < 2 ^ 24) (h : crcShifts k t = 0#25) : t = 0#25 := by
  induction k generalizing t with
  | zero => exact h
  | succ k ih =>
    have hlt : (crcShift t).toNat < 2 ^ 24 := crcShift_toNat ht ▸ crcLoopStep_lt ht
    exact crcShift_eq_zero ht (ih hlt h)

/-- A byte update gives 0 only when the byte cancels the accumulator. -/
theorem eq_of_crcStep_eq_zero {a : Crc24} {b : Byte} (h : crcStep a b = 0#24) : a = b.setWidth 24 <<< 16 := by
  obtain ⟨hloop, hlt⟩ := crcShifts_toNat 8 (crcLoad_lt a b)
  have hshifts : crcShifts 8 ((a ^^^ (b.setWidth 24 <<< 16)).setWidth 25) = 0#25 := by
    apply BitVec.eq_of_toNat_eq
    have hnat := congrArg BitVec.toNat h
    rwa [crcStep, BitVec.toNat_setWidth, Nat.mod_eq_of_lt (hloop ▸ hlt)] at hnat
  have hload := congrArg (BitVec.setWidth 24) (crcShifts_eq_zero (crcLoad_lt a b) hshifts)
  rwa [BitVec.setWidth_setWidth_of_le _ (by decide), BitVec.setWidth_eq, BitVec.setWidth_zero,
    BitVec.xor_eq_zero_iff] at hload

theorem crcStep_left_injective (b : Byte) : Function.Injective (crcStep · b) := by
  intro a a' h
  have hzero : crcStep (a ^^^ a') (b ^^^ b) = 0#24 := by
    rw [crcStep_xor, BitVec.xor_eq_zero_iff]
    exact h
  have hload := eq_of_crcStep_eq_zero hzero
  rwa [BitVec.xor_self, BitVec.setWidth_zero, BitVec.zero_shiftLeft, BitVec.xor_eq_zero_iff] at hload

theorem crcStep_right_injective (a : Crc24) : Function.Injective (crcStep a) := by
  intro b b' h
  have hzero : crcStep (a ^^^ a) (b ^^^ b') = 0#24 := by rw [crcStep_xor, h, BitVec.xor_self]
  have hnat := congrArg BitVec.toNat (eq_of_crcStep_eq_zero hzero)
  rw [BitVec.xor_self, BitVec.toNat_shiftLeft, BitVec.toNat_setWidth_of_le (by decide), Nat.shiftLeft_eq,
    BitVec.toNat_ofNat] at hnat
  refine BitVec.xor_eq_zero_iff.mp (BitVec.eq_of_toNat_eq ?_)
  rw [BitVec.toNat_ofNat]
  omega

theorem crcFrom_left_injective (s : List Byte) : Function.Injective (crcFrom · s) := by
  induction s with
  | nil => exact Function.injective_id
  | cons b s ih => exact ih.comp (crcStep_left_injective b)

/-! ### Zero bytes -/

theorem crcStep_zero : crcStep 0#24 0x00#8 = 0#24 := by decide

/-- Settles O9: zero bytes leave the accumulator at 0. -/
theorem leadingZeroBytesAreInvisible : Obligations.LeadingZeroBytesAreInvisible := by
  refine ⟨crcStep_zero, fun k s => ?_⟩
  induction k with
  | zero => rfl
  | succ k ih => rwa [List.replicate_succ, List.cons_append, crc24q, crcFrom_cons, crcStep_zero]

/-! ### The table identity -/

/-- Steps that bring no bit to place 24 are a shift. -/
theorem crcShifts_of_lt {k : Nat} {t : BitVec 25} (h : t.toNat * 2 ^ k < 2 ^ 24) : crcShifts k t = t <<< k := by
  induction k generalizing t with
  | zero => simp [crcShifts]
  | succ k ih =>
    rw [pow_succ'] at h
    have hpos := Nat.two_pow_pos k
    have hle : t.toNat * 2 ≤ t.toNat * (2 * 2 ^ k) := Nat.mul_le_mul_left _ (by omega)
    have htwo : (t <<< 1).toNat = t.toNat * 2 := by
      rw [BitVec.toNat_shiftLeft, Nat.shiftLeft_eq]
      omega
    have hbit : (t <<< 1).getLsbD 24 = false := by
      rw [← BitVec.testBit_toNat]
      exact Nat.testBit_lt_two_pow (by omega)
    have hshift : crcShift t = t <<< 1 := by
      rw [crcShift_eq, hbit]
      simp
    rw [crcShifts, hshift, ih (by rwa [htwo, Nat.mul_assoc]), ← BitVec.shiftLeft_add, Nat.add_comm]

/-- The 16 low bits of the accumulator only move up. -/
theorem crcStep_of_lt {a : Crc24} (h : a.toNat < 2 ^ 16) : crcStep a 0x00#8 = a <<< 8 := by
  have hload : a ^^^ ((0x00#8).setWidth 24 <<< 16) = a := by simp
  have hwide : (a.setWidth 25).toNat = a.toNat := BitVec.toNat_setWidth_of_le (by decide)
  rw [crcStep, hload, crcShifts_of_lt (by omega)]
  apply BitVec.eq_of_toNat_eq
  simp only [BitVec.toNat_setWidth, BitVec.toNat_shiftLeft, hwide, Nat.shiftLeft_eq]
  omega

/-- The 8 high bits of the accumulator are XORed with the byte. -/
theorem crcStep_high (h b : Byte) : crcStep (h.setWidth 24 <<< 16) b = crcStep 0#24 (h ^^^ b) := by
  have hload : h.setWidth 24 <<< 16 ^^^ b.setWidth 24 <<< 16 = 0#24 ^^^ (h ^^^ b).setWidth 24 <<< 16 := by
    rw [BitVec.zero_xor, BitVec.setWidth_xor, BitVec.shiftLeft_xor_distrib]
  rw [crcStep, hload, crcStep]

/-- An accumulator is its 8 high bits and its 16 low bits. -/
theorem crc24_split (a : Crc24) :
    (a.extractLsb' 16 8).setWidth 24 <<< 16 ^^^ (a.setWidth 16).setWidth 24 = a := by
  ext i hi
  by_cases h16 : i < 16
  · simp [h16, BitVec.getLsbD_eq_getElem hi]
  · simp [h16, show 16 + (i - 16) = i by omega, show i - 16 < 8 by omega, BitVec.getLsbD_eq_getElem hi]

/-- Settles O12: the high bits go with the byte, the low bits only move up. -/
theorem crcTableIdentity : Obligations.CrcTableIdentity := by
  intro a b
  have hlow : ((a.setWidth 16).setWidth 24).toNat < 2 ^ 16 := by
    rw [BitVec.toNat_setWidth_of_le (by decide)]
    exact BitVec.isLt _
  have hshift : (a.setWidth 16).setWidth 24 <<< 8 = a <<< 8 := by
    apply BitVec.eq_of_toNat_eq
    simp only [BitVec.toNat_shiftLeft, BitVec.toNat_setWidth, Nat.shiftLeft_eq]
    omega
  calc crcStep a b
    _ = crcStep ((a.extractLsb' 16 8).setWidth 24 <<< 16 ^^^ (a.setWidth 16).setWidth 24) (b ^^^ 0x00#8) := by
      rw [crc24_split, BitVec.xor_zero]
    _ = crcStep 0#24 (a.extractLsb' 16 8 ^^^ b) ^^^ a <<< 8 := by
      rw [crcStep_xor, crcStep_high, crcStep_of_lt hlow, hshift]
    _ = a <<< 8 ^^^ crcStep 0#24 (a.extractLsb' 16 8 ^^^ b) := BitVec.xor_comm _ _

/-! ### The residue over message and trailer -/

/-- The byte at the top of the accumulator shifts it out. -/
theorem crcStep_top (a : Crc24) : crcStep a (a.extractLsb' 16 8) = a <<< 8 := by
  rw [crcTableIdentity, BitVec.xor_self, crcStep_zero, BitVec.xor_zero]

theorem crcFrom_crcTrailer (c : Crc24) : crcFrom c (crcTrailer c) = 0#24 := by
  have hmid : (c <<< 8).extractLsb' 16 8 = c.extractLsb' 8 8 := by
    ext i hi
    simp [show 16 + i < 24 by omega, show ¬ 16 + i < 8 by omega, show 16 + i - 8 = 8 + i by omega,
      BitVec.getLsbD_eq_getElem (show 8 + i < 24 by omega)]
  have hlow : (c <<< 8 <<< 8).extractLsb' 16 8 = c.extractLsb' 0 8 := by
    rw [← BitVec.shiftLeft_add]
    ext i hi
    simp [show 16 + i < 24 by omega, BitVec.getLsbD_eq_getElem (show i < 24 by omega)]
  rw [crcTrailer, crcFrom_cons, crcFrom_cons, crcFrom_cons, crcFrom_nil, crcStep_top, ← hmid, crcStep_top, ← hlow,
    crcStep_top, ← BitVec.shiftLeft_add, ← BitVec.shiftLeft_add]
  exact BitVec.shiftLeft_eq_zero (by decide)

theorem crc24q_append_crcTrailer_iff (s : List Byte) (c : Crc24) :
    crc24q (s ++ crcTrailer c) = 0#24 ↔ c = crc24q s := by
  rw [crc24q, crcFrom_append, ← crcFrom_crcTrailer c]
  exact (crcFrom_left_injective (crcTrailer c)).eq_iff.trans eq_comm

theorem crcTrailer_append (x y z : Byte) : crcTrailer (x ++ y ++ z) = [x, y, z] := by
  have hx : (x ++ y ++ z : Crc24).extractLsb' 16 8 = x :=
    (BitVec.extractLsb'_append_eq_of_le (by decide)).trans BitVec.extractLsb'_append_eq_left
  have hy : (x ++ y ++ z : Crc24).extractLsb' 8 8 = y :=
    (BitVec.extractLsb'_append_eq_of_le (by decide)).trans BitVec.extractLsb'_append_eq_right
  have hz : (x ++ y ++ z : Crc24).extractLsb' 0 8 = z := BitVec.extractLsb'_append_eq_right
  rw [crcTrailer, hx, hy, hz]

/-- The last three of the first `n` bytes are the trailer of the CRC read there. -/
theorem State.slice_crcTrailer {s : State} {n : Nat} (hn : 3 ≤ n) (hlen : n ≤ s.len) :
    s.slice 0 n = s.slice 0 (n - 3) ++ crcTrailer (s.rxCrc n) := by
  obtain ⟨x, y, z, hx, hy, hz⟩ := State.exists_trailer hn hlen
  rw [State.rxCrc_of_byteAt hn hx hy hz, crcTrailer_append]
  rw [show n - 2 = n - 3 + 1 by omega] at hy
  rw [show n - 1 = n - 3 + 2 by omega] at hz
  rw [← State.slice_three hx hy hz, ← State.slice_zero_add, Nat.sub_add_cancel hn]

/-- Settles O10: the trailer of an accumulator shifts it out, and from no other accumulator does it give 0. -/
theorem zeroResidueExactlyForTheRightTrailer : Obligations.ZeroResidueExactlyForTheRightTrailer := by
  refine ⟨crc24q_append_crcTrailer_iff, fun s n hn hlen => ?_⟩
  rw [State.slice_crcTrailer hn hlen, crc24q_append_crcTrailer_iff]
  exact eq_comm

/-- A changed byte changes the CRC, whatever follows. -/
theorem crc24q_ne_of_byte_ne (before after : List Byte) {b b' : Byte} (h : b' ≠ b) :
    crc24q (before ++ b' :: after) ≠ crc24q (before ++ b :: after) := by
  rw [crc24q, crc24q, crcFrom_append, crcFrom_append, crcFrom_cons, crcFrom_cons]
  exact (crcFrom_left_injective after).ne ((crcStep_right_injective _).ne h)

theorem xor_bit_ne (b : Byte) {k : Nat} (hk : k < 8) : b ^^^ (1#8 <<< k) ≠ b := by
  intro h
  have hbit := congrArg (BitVec.getLsbD · k) h
  simp [hk] at hbit

/-- Settles O11: the sum of two sequences has the sum of their CRCs, and no byte or trailer change goes unseen. -/
theorem crcIsLinear : Obligations.CrcIsLinear := by
  refine ⟨fun s t => crc24q_zipWith_xor, fun s e h hs => ?pattern, fun s c c' hne hc => ?trailer,
    fun before after b k hk hb => ?bit⟩
  case pattern => rw [crc24q_zipWith_xor h, hs, BitVec.zero_xor]
  case trailer =>
    rw [Ne, crc24q_append_crcTrailer_iff]
    exact fun hc' => hne (hc'.trans ((crc24q_append_crcTrailer_iff s c).mp hc).symm)
  case bit => exact hb ▸ crc24q_ne_of_byte_ne before after (xor_bit_ne b hk)

end Sys2Proof.Machine
end

section
/-! SUPPORT. Numbers as polynomials over GF(2), and the proof of the statement that the CRC is a remainder
(40_crc_engine.md section 1). -/

namespace Sys2Proof.Machine

open Sys2Proof.Safety

/-! ### Numbers as polynomials -/

/-- The polynomial over GF(2) whose coefficients are the `n` low bits of `v`. -/
noncomputable def bitPoly (n v : Nat) : Polynomial (ZMod 2) :=
  ∑ i ∈ Finset.range n, if v.testBit i then Polynomial.X ^ i else 0

/-- XOR is addition. -/
theorem bitPoly_xor (n u v : Nat) : bitPoly n (u ^^^ v) = bitPoly n u + bitPoly n v := by
  rw [bitPoly, bitPoly, bitPoly, ← Finset.sum_add_distrib]
  refine Finset.sum_congr rfl fun i _ => ?_
  rw [Nat.testBit_xor]
  cases u.testBit i <;> cases v.testBit i <;> simp [CharTwo.add_self_eq_zero]

@[simp] theorem bitPoly_zero (n : Nat) : bitPoly n 0 = 0 := by simp [bitPoly]

/-- Low and high bits. -/
theorem bitPoly_add (m n v : Nat) : bitPoly (m + n) v = bitPoly m v + Polynomial.X ^ m * bitPoly n (v >>> m) := by
  rw [bitPoly, Finset.sum_range_add, bitPoly, bitPoly, Finset.mul_sum]
  congr 1
  refine Finset.sum_congr rfl fun i _ => ?_
  rw [Nat.testBit_shiftRight, mul_ite, mul_zero, pow_add]

theorem bitPoly_of_lt {m v : Nat} (n : Nat) (h : v < 2 ^ m) : bitPoly (m + n) v = bitPoly m v := by
  rw [bitPoly_add, Nat.shiftRight_eq_zero v m h, bitPoly_zero, mul_zero, add_zero]

/-- A shift is a multiplication by a power of `x`. -/
theorem bitPoly_shiftLeft (m n v : Nat) : bitPoly (m + n) (v <<< m) = Polynomial.X ^ m * bitPoly n v := by
  have hlow : bitPoly m (v <<< m) = 0 :=
    Finset.sum_eq_zero fun i hi => by simp [Nat.testBit_shiftLeft, Finset.mem_range.mp hi]
  rw [bitPoly_add, hlow, zero_add, Nat.shiftLeft_shiftRight]

theorem degree_bitPoly_lt (n v : Nat) : (bitPoly n v).degree < n := by
  rw [← Polynomial.mem_degreeLT]
  refine Submodule.sum_mem _ fun i hi => ?_
  rw [Polynomial.mem_degreeLT]
  split
  · rw [Polynomial.degree_X_pow]
    exact_mod_cast Finset.mem_range.mp hi
  · rw [Polynomial.degree_zero]
    exact WithBot.bot_lt_coe n

/-! ### The generator -/

/-- `G(x)` (R120). -/
noncomputable abbrev generatorPoly : Polynomial (ZMod 2) := bitPoly 25 0x1864CFB

theorem generatorPoly_eq : generatorPoly = Polynomial.X ^ 24 + bitPoly 24 0x1864CFB := by
  rw [generatorPoly, bitPoly, Finset.sum_range_succ, if_pos (by decide), add_comm]
  rfl

theorem generatorPoly_monic : generatorPoly.Monic := by
  rw [generatorPoly_eq]
  exact Polynomial.monic_X_pow_add (degree_bitPoly_lt 24 _)

theorem generatorPoly_degree : generatorPoly.degree = 24 := by
  rw [generatorPoly_eq, Polynomial.degree_add_eq_left_of_degree_lt, Polynomial.degree_X_pow]
  · rfl
  · rw [Polynomial.degree_X_pow]
    exact degree_bitPoly_lt 24 _

/-! ### The byte update modulo the generator -/

/-- The class of a polynomial modulo `G(x)`. -/
noncomputable abbrev residue : Polynomial (ZMod 2) →+* AdjoinRoot generatorPoly := AdjoinRoot.mk generatorPoly

/-- One step multiplies by `x`. -/
theorem residue_crcLoopStep {t : Nat} (ht : t < 2 ^ 24) :
    residue (bitPoly 24 (crcLoopStep t)) = residue (bitPoly 24 t) * residue Polynomial.X := by
  have hshift : bitPoly 25 (t <<< 1) = Polynomial.X * bitPoly 24 t := by
    rw [← pow_one Polynomial.X]
    exact bitPoly_shiftLeft 1 24 t
  rw [← bitPoly_of_lt 1 (crcLoopStep_lt ht), crcLoopStep, ← map_mul, mul_comm, ← hshift]
  split
  · rw [bitPoly_xor, map_add, residue, AdjoinRoot.mk_self, add_zero]
  · rfl

theorem residue_crcLoopStep_iterate (k : Nat) {t : Nat} (ht : t < 2 ^ 24) :
    residue (bitPoly 24 (crcLoopStep^[k] t)) = residue (bitPoly 24 t) * residue Polynomial.X ^ k := by
  induction k generalizing t with
  | zero => rw [Function.iterate_zero_apply, pow_zero, mul_one]
  | succ k ih =>
    rw [Function.iterate_succ_apply, ih (crcLoopStep_lt ht), residue_crcLoopStep ht, pow_succ', mul_assoc]

/-- The byte update adds the byte above bit 15 and multiplies by `x^8`. -/
theorem residue_crcStep (a : Crc24) (b : Byte) :
    residue (bitPoly 24 (crcStep a b).toNat) =
      (residue (bitPoly 24 a.toNat) + residue Polynomial.X ^ 16 * residue (bitPoly 8 b.toNat)) *
        residue Polynomial.X ^ 8 := by
  obtain ⟨hloop, hlt⟩ := crcMaskDropsNothing a b 8 le_rfl
  have hload := crcLoad_toNat a b ▸ crcLoad_lt a b
  have hbyte : bitPoly 24 (b.toNat <<< 16) = Polynomial.X ^ 16 * bitPoly 8 b.toNat := bitPoly_shiftLeft 16 8 _
  rw [crcStep, BitVec.toNat_setWidth, hloop, Nat.mod_eq_of_lt hlt, residue_crcLoopStep_iterate 8 hload, bitPoly_xor,
    hbyte, map_add, map_mul, map_pow]

/-! ### The CRC of a byte sequence -/

/-- A byte below a shifted number fills the bits the shift has left at 0. -/
theorem shiftLeft_or_byte_eq_xor (v : Nat) (b : Byte) : v <<< 8 ||| b.toNat = v <<< 8 ^^^ b.toNat := by
  refine Nat.eq_of_testBit_eq fun i => ?_
  rw [Nat.testBit_or, Nat.testBit_xor, Nat.testBit_shiftLeft]
  by_cases hi : i < 8
  · simp [show ¬ 8 ≤ i by omega]
  · have hbit : b.toNat.testBit i = false := by
      rw [BitVec.testBit_toNat]
      exact BitVec.getLsbD_of_ge b i (by omega)
    simp [hbit]

theorem bitPoly_be_append_one (s : List Byte) (b : Byte) :
    bitPoly (8 * (s ++ [b]).length) (be (s ++ [b])) =
      Polynomial.X ^ 8 * bitPoly (8 * s.length) (be s) + bitPoly 8 b.toNat := by
  rw [List.length_append, List.length_singleton, Nat.mul_add, Nat.mul_one, Nat.add_comm, be_append_one,
    shiftLeft_or_byte_eq_xor, bitPoly_xor, bitPoly_shiftLeft, bitPoly_of_lt _ b.isLt]

/-- Modulo `G(x)` the CRC is `M(x) * x^24`. -/
theorem residue_crc24q (s : List Byte) :
    residue (bitPoly 24 (crc24q s).toNat) = residue (bitPoly (8 * s.length) (be s) * Polynomial.X ^ 24) := by
  induction s using List.reverseRecOn with
  | nil => simp [crc24q, bitPoly]
  | append_singleton s b ih =>
    have hfold : crc24q (s ++ [b]) = crcStep (crc24q s) b := crcFrom_append _ s [b]
    rw [hfold, residue_crcStep, ih, bitPoly_be_append_one]
    simp only [residue, map_add, map_mul, map_pow]
    ring

/-- Settles O13: the CRC is congruent to `M(x) * x^24` and its degree is below that of `G(x)`. -/
theorem crcIsThePolynomialRemainder : Obligations.CrcIsThePolynomialRemainder := by
  intro s
  have hdegree : (bitPoly 24 (crc24q s).toNat).degree < generatorPoly.degree := by
    rw [generatorPoly_degree]
    exact degree_bitPoly_lt 24 _
  have hdvd := AdjoinRoot.mk_eq_mk.mp (residue_crc24q s)
  calc bitPoly 24 (crc24q s).toNat
    _ = bitPoly 24 (crc24q s).toNat %ₘ generatorPoly :=
      ((Polynomial.modByMonic_eq_self_iff generatorPoly_monic).mpr hdegree).symm
    _ = bitPoly (8 * s.length) (be s) * Polynomial.X ^ 24 %ₘ generatorPoly :=
      Polynomial.modByMonic_eq_of_dvd_sub generatorPoly_monic hdvd

end Sys2Proof.Machine
end

section
/-! SUPPORT. What a run of words leaves in the accumulator (40_crc_engine.md R131), and the proof of the statement about
it. -/

namespace Sys2Proof.Machine

open Sys2Proof.Safety

theorem run_succ_of_next {M : Host.Core} {s t : M.State} (h : M.step s = .next t) (k : Nat) :
    M.run (k + 1) s = M.run k t := by
  rw [Host.Core.run, h]

theorem core_run_succ_of_next {s t : State} (h : step s = .next t) (k : Nat) : core.run (k + 1) s = core.run k t :=
  run_succ_of_next (M := core) h k

theorem updBytes_cons (w : Cmd) (ws : List Cmd) : updBytes (w :: ws) = updBytes [w] ++ updBytes ws := by
  rw [updBytes, updBytes]
  split <;> rfl

/-- A word other than CRC.CLR and SRST folds into `ACC` the byte it carries, if it is a CRC.UPD. -/
theorem runWord_acc {w : Cmd} {s t : State} (hclr : decode w ≠ .ok .crcClr) (hsrst : decode w ≠ .ok .srst)
    (h : runWord w s = .next t) : t.acc = crcFrom s.acc (updBytes [w]) := by
  cases hd : decode w with
  | error e =>
    rw [runWord_error hd] at h
    cases h
    simp [updBytes, hd, State.raise_illegalCommand]
  | ok i =>
    rw [runWord_ok hd] at h
    cases i with
    | crcUpd b =>
      cases h
      simp [updBytes, hd, crcFrom_cons]
    | crcClr => exact absurd hd hclr
    | srst => exact absurd hd hsrst
    | nop | push | flush | rdreg =>
      have hacc : t.acc = s.acc := by
        by_contra hne
        simpa using (writesOf_exec h nofun).acc hne
      simp [updBytes, hd, hacc]

/-- A run of such words completes and folds in the bytes of its CRC.UPDs, whatever else is among them. -/
theorem run_words_acc {ws : List Cmd} (hws : ∀ w ∈ ws, decode w ≠ .ok .crcClr ∧ decode w ≠ .ok .srst) {s : State}
    (hin : s.inputs = ws.map .command) :
    ∃ t : State, core.run ws.length s = .next t ∧ t.acc = crcFrom s.acc (updBytes ws) := by
  induction ws generalizing s with
  | nil => exact ⟨s, rfl, rfl⟩
  | cons w ws ih =>
    obtain ⟨⟨hclr, hsrst⟩, hrest⟩ := List.forall_mem_cons.mp hws
    obtain ⟨u, _, hword, hsends⟩ := runWord_sends w (s.accept (ws.map .command))
    have hstep : step s = .next u := (step_of_input hin).trans hword
    obtain ⟨t, hrun, hacc⟩ := ih hrest (hsends.inputs.trans (s.accept_inputs _))
    refine ⟨t, (core_run_succ_of_next hstep _).trans hrun, ?_⟩
    rw [hacc, runWord_acc hclr hsrst hword, State.accept_acc, ← crcFrom_append, ← updBytes_cons]

/-- Settles O16: each word folds in its byte; CRC.CLR and the reset start from 0. -/
theorem crcUpdSequenceComputesTheChecksum : Obligations.CrcUpdSequenceComputesTheChecksum := by
  intro ws hws
  refine ⟨fun s => run_words_acc hws rfl, fun s => ?clear, run_words_acc hws rfl⟩
  case clear =>
    have hdecode : decode 0x400#12 = .ok .crcClr := by decide
    have hstep : step { s with inputs := (0x400#12 :: ws).map .command } = exec .crcClr (s.accept (ws.map .command)) :=
      (step_of_input (i := .command 0x400#12) rfl).trans (runWord_ok hdecode _)
    obtain ⟨t, hrun, hacc⟩ := run_words_acc hws (s := { s.accept (ws.map .command) with acc := 0x000000#24 }) rfl
    exact ⟨t, (core_run_succ_of_next (hstep.trans (exec_crcClr _)) _).trans hrun, hacc⟩

end Sys2Proof.Machine
end
